-- ==== Sys2Proof/Word.lean ====
section
/-! DEFINITION. The word types of the control link (spec 0-5.1, R154, R162): bytes, two-byte and four-byte fields. -/

namespace Sys2Proof

/-- A byte of a record on the control link (R154). -/
abbrev Byte := BitVec 8

/-- A two-byte field of a record. -/
abbrev Half := BitVec 16

/-- A four-byte field of a record: a count, or a parameter's value (R162, R165). -/
abbrev Word := BitVec 32

/-- The number of a panel slot, 0 to 95 (R1). -/
abbrev Slot := Fin 96

end Sys2Proof
end

