-- ==== Sys2Proof/Syntax.lean ====
section
/-! DEFINITION. The commands of the CN-96: one constructor for each row of spec/opcode_table.json.
A request carries its TAG and its operand bytes as R162 lays them out (fields of two or four bytes as one
value); an event carries what the spec says arrives with it. -/

namespace Sys2Proof

/-- The cause of a hardware reset, carried by the STARTED notice (R161, R164). -/
inductive ResetCause where
  | powerOn
  | resetLine
  deriving DecidableEq, Repr

/-- An axis of the head (R125, R126). -/
inductive Axis where
  | x
  | y
  deriving DecidableEq, Repr

/-- A vertex as POINTS carries it: u then v, four bytes each, unsigned (R13, R162). -/
structure RawVertex where
  u : Word
  v : Word
  deriving DecidableEq, Repr

/-- One command (a step of spec/opcode_table.json). -/
inductive Instr where
  /-- HARDWARE_RESET (R161): the cause and the level on each input wire as the reset ends, bit n for line n (R131). -/
  | hardwareReset (cause : ResetCause) (wires : Byte)
  /-- LINK_CLEAR (R160): the receive line has been low for 10 ms. -/
  | linkClear
  /-- LINK_BYTE_RECEIVED (R155): a character, and whether its stop bit was wrong. -/
  | linkByteReceived (byte : Byte) (stopError : Bool)
  /-- FRAME_GAP_EXPIRY (R155): more than 5 ms since the last character. -/
  | frameGapExpiry
  /-- SHORT_BREAK (R155): the line returns high after a short break. -/
  | shortBreak
  /-- RECORD_TAKE (R157). -/
  | recordTake
  /-- OUTBOUND_RECORD_SENT (R158, R153). -/
  | outboundRecordSent
  /-- WATCH_EXPIRY (R168). -/
  | watchExpiry
  /-- IDENT (R169). -/
  | ident (tag : Byte)
  /-- LINK_TEST (R159). -/
  | linkTest (tag : Byte) (payload : List Byte)
  /-- SET_LINK (R153). -/
  | setLink (tag code : Byte)
  /-- SET_PARAM (R165). -/
  | setParam (tag param index : Byte) (value : Word)
  /-- GET_PARAM (R165). -/
  | getParam (tag param index : Byte)
  /-- READ_TABLE (R166). -/
  | readTable (tag table qualifier : Byte) (start : Half) (max : Byte)
  /-- READ_NEXT (R166). -/
  | readNext (tag max : Byte)
  /-- WATCH (R168). -/
  | watch (tag item slot : Byte) (period : Half)
  /-- SET_BREAK (R106). -/
  | setBreak (tag index kind argument action : Byte)
  /-- CLEAR_FAULT (R149, R150). -/
  | clearFault (tag : Byte)
  /-- STATUS (R169). -/
  | status (tag : Byte)
  /-- OPEN_OUTLINE (R11, R12). -/
  | openOutline (tag slot : Byte) (n bleed : Half) (tool flags order passes : Byte) (label : List Byte)
  /-- POINTS (R13, R14). -/
  | points (tag : Byte) (first : Half) (vertices : List RawVertex)
  /-- CLOSE_OUTLINE (R15, R16). -/
  | closeOutline (tag : Byte)
  /-- ABANDON_OUTLINE (R17). -/
  | abandonOutline (tag : Byte)
  /-- SET_PANEL (R6). -/
  | setPanel (tag slot : Byte) (bleed : Half) (tool flags order passes : Byte) (label : List Byte)
  /-- DELETE_PANEL (R7). -/
  | deletePanel (tag slot : Byte)
  /-- NEST (R29). -/
  | nest (tag flags : Byte)
  /-- NEST_STEP (R31 to R35). -/
  | nestStep
  /-- NEST_ABORT (R37). -/
  | nestAbort (tag : Byte)
  /-- PLACE (R40). -/
  | place (tag slot rotation : Byte) (x y : Word)
  /-- UNPLACE (R41). -/
  | unplace (tag slot : Byte)
  /-- PIN (R42). -/
  | pin (tag slot : Byte)
  /-- UNPIN (R43). -/
  | unpin (tag slot : Byte)
  /-- COMMIT (R45): the mode byte and the slots listed. -/
  | commit (tag mode : Byte) (slots : List Byte)
  /-- UNCOMMIT (R46). -/
  | uncommit (tag slot : Byte)
  /-- HOME (R94). -/
  | home (tag : Byte)
  /-- START_CUT (R95). -/
  | startCut (tag : Byte)
  /-- SUSPEND (R101). -/
  | suspend (tag : Byte)
  /-- RESUME (R107 to R109). -/
  | resume (tag : Byte)
  /-- STOP_CUT (R111). -/
  | stopCut (tag : Byte)
  /-- SKIP_PANEL (R112). -/
  | skipPanel (tag slot : Byte)
  /-- TEST_CUT (R113). -/
  | testCut (tag tool : Byte) (size : Half) (x y : Word)
  /-- JOG (R114). -/
  | jog (tag : Byte) (x y : Word)
  /-- FEED (R115). -/
  | feed (tag n : Byte)
  /-- MARK_SET (R66). -/
  | markSet (tag row side : Byte) (x y : Word)
  /-- MARK_TAKE (R67). -/
  | markTake (tag row side : Byte)
  /-- ACCEPT_SEAM (R68). -/
  | acceptSeam (tag : Byte)
  /-- REMEASURE (R69). -/
  | remeasure (tag : Byte)
  /-- JOB_CLEAR (R116). -/
  | jobClear (tag : Byte)
  /-- SETTLE_EXPIRY (R97). -/
  | settleExpiry
  /-- MOVE_COMPLETION (R123): a TRAVEL or CUT entry has reached its target. -/
  | moveCompletion
  /-- MARK_SENSOR_REPORT (R124): the mark centre the sensor reports, in counts and exact. -/
  | markSensorReport (x y : Rat)
  /-- SEARCH_SCAN_END (R124). -/
  | searchScanEnd
  /-- HOME_FULL_TRAVEL (R126). -/
  | homeFullTravel (axis : Axis)
  /-- ENCODER_STEP (R128): one step of the media encoder, forward or backward. -/
  | encoderStep (forward : Bool)
  /-- FEED_GUARD_EXPIRY (R128). -/
  | feedGuardExpiry
  /-- FEED_DRIVE_DONE (R129). -/
  | feedDriveDone
  /-- LINE_WIRE_CHANGE (R132): the wire of a line stands at a level. -/
  | lineWireChange (line : Fin 8) (level : Bool)
  /-- FILTER_EXPIRY (R132). -/
  | filterExpiry (line : Fin 8)
  /-- AXIS_POSITION_REPORT (R123, R125): the head's position as the amplifiers report it, in bed counts. -/
  | axisPositionReport (x y : Int)
  /-- LINK_LINE_RETURN_HIGH (R160). -/
  | linkLineReturnHigh
  deriving DecidableEq, Repr

end Sys2Proof
end

