-- ==== Sys2Proof/WellFormed.lean ====
section
/-! DEFINITION. Which commands a frame can carry whole: the payload lengths that R162 allows each request
whose length varies. The link port answers BAD_LENGTH to any other (R157 step 4). -/

namespace Sys2Proof

/-- The payload length is one that the request's kind allows (R162); every event is well formed. -/
def Instr.wellFormed : Instr → Bool
  | .linkTest _ payload => 2 ≤ payload.length && payload.length ≤ 239
  | .openOutline _ _ _ _ _ _ _ _ label => label.length ≤ 12
  | .setPanel _ _ _ _ _ _ _ label => label.length ≤ 12
  | .points _ _ vertices => 1 ≤ vertices.length && vertices.length ≤ 28
  | .commit _ mode slots => if mode = 0 then slots.isEmpty else slots.length ≤ 240
  | .hardwareReset _ _ => true
  | .linkClear => true
  | .linkByteReceived _ _ => true
  | .frameGapExpiry => true
  | .shortBreak => true
  | .recordTake => true
  | .outboundRecordSent => true
  | .watchExpiry => true
  | .ident _ => true
  | .setLink _ _ => true
  | .setParam _ _ _ _ => true
  | .getParam _ _ _ => true
  | .readTable _ _ _ _ _ => true
  | .readNext _ _ => true
  | .watch _ _ _ _ => true
  | .setBreak _ _ _ _ _ => true
  | .clearFault _ => true
  | .status _ => true
  | .closeOutline _ => true
  | .abandonOutline _ => true
  | .deletePanel _ _ => true
  | .nest _ _ => true
  | .nestStep => true
  | .nestAbort _ => true
  | .place _ _ _ _ _ => true
  | .unplace _ _ => true
  | .pin _ _ => true
  | .unpin _ _ => true
  | .uncommit _ _ => true
  | .home _ => true
  | .startCut _ => true
  | .suspend _ => true
  | .resume _ => true
  | .stopCut _ => true
  | .skipPanel _ _ => true
  | .testCut _ _ _ _ _ => true
  | .jog _ _ _ => true
  | .feed _ _ => true
  | .markSet _ _ _ _ _ => true
  | .markTake _ _ _ => true
  | .acceptSeam _ => true
  | .remeasure _ => true
  | .jobClear _ => true
  | .settleExpiry => true
  | .moveCompletion => true
  | .markSensorReport _ _ => true
  | .searchScanEnd => true
  | .homeFullTravel _ => true
  | .encoderStep _ => true
  | .feedGuardExpiry => true
  | .feedDriveDone => true
  | .lineWireChange _ _ => true
  | .filterExpiry _ => true
  | .axisPositionReport _ _ => true
  | .linkLineReturnHigh => true

end Sys2Proof
end

