-- ==== Sys2Proof/Decode.lean ====
section
/-! DEFINITION. Reading and writing the body of a request record (R154, R162), and `decodeTableWord`. -/

namespace Sys2Proof

/-- A two-byte field, high byte first (10-1). -/
def halfBytes (h : Half) : List Byte := [h.extractLsb' 8 8, h.extractLsb' 0 8]

/-- A four-byte field, high byte first (10-1). -/
def wordBytes (w : Word) : List Byte :=
  [w.extractLsb' 24 8, w.extractLsb' 16 8, w.extractLsb' 8 8, w.extractLsb' 0 8]

/-- The two-byte field of two bytes, high byte first. -/
def halfOf (b1 b0 : Byte) : Half := b1 ++ b0

/-- The four-byte field of four bytes, high byte first. -/
def wordOf (b3 b2 b1 b0 : Byte) : Word := b3 ++ b2 ++ b1 ++ b0

/-- The vertices of a POINTS payload: u then v, four bytes each (R162); `none` when bytes are left over. -/
def vertexList : List Byte → Option (List RawVertex)
  | [] => some []
  | a :: b :: c :: d :: e :: f :: g :: h :: rest =>
    (vertexList rest).map (⟨wordOf a b c d, wordOf e f g h⟩ :: ·)
  | _ => none

/-- The bytes of vertices, as POINTS carries them. -/
def vertexBytes (vs : List RawVertex) : List Byte := vs.flatMap fun p => wordBytes p.u ++ wordBytes p.v

/-- What a record's body says to the link port at a take (R157 steps 3 to 5). -/
inductive Parsed where
  /-- A request of a listed kind with an allowed length. -/
  | request (i : Instr)
  /-- A listed kind with another length: answered BAD_LENGTH. -/
  | badLength
  /-- Not a request kind: answered UNKNOWN_KIND. -/
  | unknownKind
  deriving DecidableEq, Repr

/-- A payload of two fill bytes, disregarded whatever they hold (R162). -/
def parseFill (i : Instr) : List Byte → Parsed
  | [_, _] => .request i
  | _ => .badLength

/-- A payload of one operand byte and a trailing zero byte that is disregarded (R162). -/
def parseOne (f : Byte → Instr) : List Byte → Parsed
  | [a, _] => .request (f a)
  | _ => .badLength

/-- A payload of two operand bytes. -/
def parseTwo (f : Byte → Byte → Instr) : List Byte → Parsed
  | [a, b] => .request (f a b)
  | _ => .badLength

/-- SET_PARAM: parameter, index, value (4, signed). -/
def parseSetParam (tag : Byte) : List Byte → Parsed
  | [p, i, a, b, c, d] => .request (.setParam tag p i (wordOf a b c d))
  | _ => .badLength

/-- READ_TABLE: table, qualifier, start (2), max. -/
def parseReadTable (tag : Byte) : List Byte → Parsed
  | [t, q, a, b, m] => .request (.readTable tag t q (halfOf a b) m)
  | _ => .badLength

/-- WATCH: item, slot, period (2). -/
def parseWatch (tag : Byte) : List Byte → Parsed
  | [i, s, a, b] => .request (.watch tag i s (halfOf a b))
  | _ => .badLength

/-- SET_BREAK: index, kind, argument, action or on/off. -/
def parseSetBreak (tag : Byte) : List Byte → Parsed
  | [i, k, a, c] => .request (.setBreak tag i k a c)
  | _ => .badLength

/-- LINK_TEST: 2 to 239 bytes (R159). -/
def parseLinkTest (tag : Byte) (p : List Byte) : Parsed :=
  if 2 ≤ p.length ∧ p.length ≤ 239 then .request (.linkTest tag p) else .badLength

/-- OPEN_OUTLINE: slot, N (2), bleed (2), tool, flags, order, passes, label. The label's length byte must agree
with the payload and be at most 12 (R162). -/
def parseOpenOutline (tag : Byte) : List Byte → Parsed
  | s :: n1 :: n0 :: b1 :: b0 :: t :: f :: o :: p :: len :: label =>
    if label.length = len.toNat ∧ len.toNat ≤ 12 then
      .request (.openOutline tag s (halfOf n1 n0) (halfOf b1 b0) t f o p label)
    else .badLength
  | _ => .badLength

/-- SET_PANEL: slot, bleed (2), tool, flags, order, passes, label (R162). -/
def parseSetPanel (tag : Byte) : List Byte → Parsed
  | s :: b1 :: b0 :: t :: f :: o :: p :: len :: label =>
    if label.length = len.toNat ∧ len.toNat ≤ 12 then
      .request (.setPanel tag s (halfOf b1 b0) t f o p label)
    else .badLength
  | _ => .badLength

/-- POINTS: first index (2), count, vertices; a count outside 1 to 28 or one that disagrees with the length is
BAD_LENGTH (R14, R162). -/
def parsePoints (tag : Byte) : List Byte → Parsed
  | i1 :: i0 :: count :: rest =>
    match vertexList rest with
    | some vs =>
      if vs.length = count.toNat ∧ 1 ≤ count.toNat ∧ count.toNat ≤ 28 then
        .request (.points tag (halfOf i1 i0) vs)
      else .badLength
    | none => .badLength
  | _ => .badLength

/-- COMMIT: mode, count, then count slots. In ALL mode (0) no slots stand behind the count, whose byte is not read
(log 21); any other mode has its length checked as in list mode (R162). -/
def parseCommit (tag : Byte) : List Byte → Parsed
  | mode :: count :: slots =>
    if mode = 0 then
      if slots.isEmpty then .request (.commit tag mode []) else .badLength
    else if slots.length = count.toNat then .request (.commit tag mode slots) else .badLength
  | _ => .badLength

/-- PLACE: slot, rotation, x (4), y (4). -/
def parsePlace (tag : Byte) : List Byte → Parsed
  | [s, r, a, b, c, d, e, f, g, h] => .request (.place tag s r (wordOf a b c d) (wordOf e f g h))
  | _ => .badLength

/-- TEST_CUT: tool, 0, size (2), x (4), y (4). The second byte is disregarded whatever it holds, the model's choice
(log 37). -/
def parseTestCut (tag : Byte) : List Byte → Parsed
  | [t, _, s1, s0, a, b, c, d, e, f, g, h] =>
    .request (.testCut tag t (halfOf s1 s0) (wordOf a b c d) (wordOf e f g h))
  | _ => .badLength

/-- JOG: x (4), y (4). -/
def parseJog (tag : Byte) : List Byte → Parsed
  | [a, b, c, d, e, f, g, h] => .request (.jog tag (wordOf a b c d) (wordOf e f g h))
  | _ => .badLength

/-- MARK_SET: row, side, x (4), y (4). -/
def parseMarkSet (tag : Byte) : List Byte → Parsed
  | [r, s, a, b, c, d, e, f, g, h] => .request (.markSet tag r s (wordOf a b c d) (wordOf e f g h))
  | _ => .badLength

/-- The request kinds of R162 by their codes, with the payload lengths each allows. -/
def parseRequest (kind tag : Byte) (payload : List Byte) : Parsed :=
  match kind.toNat with
  | 0x01 => parseFill (.ident tag) payload
  | 0x02 => parseLinkTest tag payload
  | 0x03 => parseOne (.setLink tag) payload
  | 0x04 => parseSetParam tag payload
  | 0x05 => parseTwo (.getParam tag) payload
  | 0x06 => parseReadTable tag payload
  | 0x07 => parseOne (.readNext tag) payload
  | 0x08 => parseWatch tag payload
  | 0x09 => parseSetBreak tag payload
  | 0x0A => parseFill (.clearFault tag) payload
  | 0x0B => parseFill (.status tag) payload
  | 0x10 => parseOpenOutline tag payload
  | 0x11 => parsePoints tag payload
  | 0x12 => parseFill (.closeOutline tag) payload
  | 0x13 => parseFill (.abandonOutline tag) payload
  | 0x14 => parseSetPanel tag payload
  | 0x15 => parseOne (.deletePanel tag) payload
  | 0x18 => parseOne (.nest tag) payload
  | 0x19 => parseFill (.nestAbort tag) payload
  | 0x1A => parsePlace tag payload
  | 0x1B => parseOne (.unplace tag) payload
  | 0x1C => parseOne (.pin tag) payload
  | 0x1D => parseOne (.unpin tag) payload
  | 0x1E => parseCommit tag payload
  | 0x1F => parseOne (.uncommit tag) payload
  | 0x20 => parseFill (.home tag) payload
  | 0x21 => parseFill (.startCut tag) payload
  | 0x22 => parseFill (.suspend tag) payload
  | 0x23 => parseFill (.resume tag) payload
  | 0x24 => parseFill (.stopCut tag) payload
  | 0x25 => parseOne (.skipPanel tag) payload
  | 0x26 => parseTestCut tag payload
  | 0x27 => parseJog tag payload
  | 0x28 => parseOne (.feed tag) payload
  | 0x29 => parseMarkSet tag payload
  | 0x2A => parseTwo (.markTake tag) payload
  | 0x2B => parseFill (.acceptSeam tag) payload
  | 0x2C => parseFill (.remeasure tag) payload
  | 0x2F => parseFill (.jobClear tag) payload
  | _ => .unknownKind

/-- KIND, TAG and payload of a request record as the host sends it (R154, R162); `none` for an event, which no
record carries. -/
def requestFields : Instr → Option (Byte × Byte × List Byte)
  | .ident tag => some (0x01, tag, [0, 0])
  | .linkTest tag payload => some (0x02, tag, payload)
  | .setLink tag code => some (0x03, tag, [code, 0])
  | .setParam tag p i v => some (0x04, tag, [p, i] ++ wordBytes v)
  | .getParam tag p i => some (0x05, tag, [p, i])
  | .readTable tag t q start max => some (0x06, tag, [t, q] ++ halfBytes start ++ [max])
  | .readNext tag max => some (0x07, tag, [max, 0])
  | .watch tag item slot period => some (0x08, tag, [item, slot] ++ halfBytes period)
  | .setBreak tag index kind argument action => some (0x09, tag, [index, kind, argument, action])
  | .clearFault tag => some (0x0A, tag, [0, 0])
  | .status tag => some (0x0B, tag, [0, 0])
  | .openOutline tag slot n bleed tool flags order passes label =>
    some (0x10, tag, [slot] ++ halfBytes n ++ halfBytes bleed ++
      [tool, flags, order, passes, BitVec.ofNat 8 label.length] ++ label)
  | .points tag first vertices =>
    some (0x11, tag, halfBytes first ++ [BitVec.ofNat 8 vertices.length] ++ vertexBytes vertices)
  | .closeOutline tag => some (0x12, tag, [0, 0])
  | .abandonOutline tag => some (0x13, tag, [0, 0])
  | .setPanel tag slot bleed tool flags order passes label =>
    some (0x14, tag, [slot] ++ halfBytes bleed ++
      [tool, flags, order, passes, BitVec.ofNat 8 label.length] ++ label)
  | .deletePanel tag slot => some (0x15, tag, [slot, 0])
  | .nest tag flags => some (0x18, tag, [flags, 0])
  | .nestAbort tag => some (0x19, tag, [0, 0])
  | .place tag slot rotation x y => some (0x1A, tag, [slot, rotation] ++ wordBytes x ++ wordBytes y)
  | .unplace tag slot => some (0x1B, tag, [slot, 0])
  | .pin tag slot => some (0x1C, tag, [slot, 0])
  | .unpin tag slot => some (0x1D, tag, [slot, 0])
  | .commit tag mode slots => some (0x1E, tag, [mode, BitVec.ofNat 8 slots.length] ++ slots)
  | .uncommit tag slot => some (0x1F, tag, [slot, 0])
  | .home tag => some (0x20, tag, [0, 0])
  | .startCut tag => some (0x21, tag, [0, 0])
  | .suspend tag => some (0x22, tag, [0, 0])
  | .resume tag => some (0x23, tag, [0, 0])
  | .stopCut tag => some (0x24, tag, [0, 0])
  | .skipPanel tag slot => some (0x25, tag, [slot, 0])
  | .testCut tag tool size x y => some (0x26, tag, [tool, 0] ++ halfBytes size ++ wordBytes x ++ wordBytes y)
  | .jog tag x y => some (0x27, tag, wordBytes x ++ wordBytes y)
  | .feed tag n => some (0x28, tag, [n, 0])
  | .markSet tag row side x y => some (0x29, tag, [row, side] ++ wordBytes x ++ wordBytes y)
  | .markTake tag row side => some (0x2A, tag, [row, side])
  | .acceptSeam tag => some (0x2B, tag, [0, 0])
  | .remeasure tag => some (0x2C, tag, [0, 0])
  | .jobClear tag => some (0x2F, tag, [0, 0])
  | .hardwareReset _ _ => none
  | .linkClear => none
  | .linkByteReceived _ _ => none
  | .frameGapExpiry => none
  | .shortBreak => none
  | .recordTake => none
  | .outboundRecordSent => none
  | .watchExpiry => none
  | .nestStep => none
  | .settleExpiry => none
  | .moveCompletion => none
  | .markSensorReport _ _ => none
  | .searchScanEnd => none
  | .homeFullTravel _ => none
  | .encoderStep _ => none
  | .feedGuardExpiry => none
  | .feedDriveDone => none
  | .lineWireChange _ _ => none
  | .filterExpiry _ => none
  | .axisPositionReport _ _ => none
  | .linkLineReturnHigh => none

/-- The body of a request record: KIND, TAG, payload (R154). -/
def requestBody (i : Instr) : Option (List Byte) :=
  (requestFields i).map fun f => f.1 :: f.2.1 :: f.2.2

/-- What a record's body says (R157). A body without KIND and TAG is no request. -/
def parseBody : List Byte → Parsed
  | kind :: tag :: payload => parseRequest kind tag payload
  | _ => .unknownKind

/-- The command a word of the opcode table's bits spells. No row of this table gives bits, so no word spells one. -/
def decodeTableWord (_nbits _w : Nat) : Option Instr := none

end Sys2Proof
end

