-- ==== Sys2Proof/Machine/Bytes.lean ====
section
/-! DEFINITION. Writing fields of records as bytes (10-1), exact rounding (0-5.2), the frame check (R154), and the
sorting and square-root helpers the units share. -/

namespace Sys2Proof.Machine

/-- A one-byte field. -/
def u8 (n : Nat) : Byte := BitVec.ofNat 8 n

/-- A two-byte field, high byte first (10-1). -/
def be16 (n : Nat) : List Byte := [u8 (n / 256), u8 n]

/-- A four-byte unsigned field, high byte first (10-1). -/
def be32 (n : Nat) : List Byte := [u8 (n / 16777216), u8 (n / 65536), u8 (n / 256), u8 n]

/-- A four-byte signed field, high byte first (10-1; log 17 on values beyond 32 bits). -/
def be32i (z : Int) : List Byte := be32 (BitVec.ofInt 32 z).toNat

/-- The weight of a flag at a bit of a flag byte. -/
def bitAt (bit : Nat) (b : Bool) : Nat := if b then 2 ^ bit else 0

/-- One bit of the CRC, polynomial 0x1021 (R154). -/
def crcBit (c : Half) : Half := if c.msb then (c <<< 1) ^^^ 0x1021#16 else c <<< 1

/-- Feeds one byte, most significant bit first (R154). -/
def crcByte (c : Half) (b : Byte) : Half :=
  crcBit (crcBit (crcBit (crcBit (crcBit (crcBit (crcBit (crcBit (c ^^^ (b ++ 0#8)))))))))

/-- CRC-16 of the bytes in order, initial value 0xFFFF, no reflection, no final inversion (R154). -/
def crc16 (bytes : List Byte) : Half := bytes.foldl crcByte 0xFFFF#16

/-- The frame of a record's body: START, LEN, body, CRC high byte first (R154). -/
def frameOf (body : List Byte) : List Byte :=
  let inner := u8 body.length :: body
  0xA5 :: inner ++ [(crc16 inner).extractLsb' 8 8, (crc16 inner).extractLsb' 0 8]

/-- `n / d` rounded to the nearest whole number, halves away from zero (0-5.2); `d` is positive. -/
def roundDiv (n : Int) (d : Nat) : Int :=
  let q : Int := ((2 * n.natAbs + d) / (2 * d) : Nat)
  if n < 0 then -q else q

/-- One binary digit of a square root at a time: `r` is the root found so far, `k` digits are left. -/
def isqrtFrom (n : Nat) : Nat → Nat → Nat
  | 0, r => r
  | k + 1, r => if (r + 2 ^ k) * (r + 2 ^ k) ≤ n then isqrtFrom n k (r + 2 ^ k) else isqrtFrom n k r

/-- The greatest whole number whose square is not above `n`. -/
def isqrt (n : Nat) : Nat := isqrtFrom n (Nat.log2 n / 2 + 1) 0

/-- The square root of `n / d` rounded to the nearest whole number (R60, R61). -/
def roundSqrtDiv (n d : Nat) : Nat := (isqrt (4 * n / d) + 1) / 2

/-- Puts `a` in front of the first element that is not strictly before it. -/
def insertBy {α : Type} (before : α → α → Bool) (a : α) : List α → List α
  | [] => [a]
  | b :: l => if before b a then b :: insertBy before a l else a :: b :: l

/-- Sorts a list by a strict order. -/
def sortBy {α : Type} (before : α → α → Bool) : List α → List α
  | [] => []
  | a :: l => insertBy before a (sortBy before l)

/-- Least whole number not less than `a / b` (0-5.2). -/
def ceilDiv (a b : Nat) : Nat := (a + b - 1) / b

/-- The greatest of a list of whole numbers, 0 for none. -/
def maxOf (l : List Nat) : Nat := l.foldr Nat.max 0

end Sys2Proof.Machine
end

