-- ==== Sys2Proof/Config.lean ====
section
/-! DEFINITION. The constants the spec fixes for every CN-96 (0-3.2, 0-5.1, R155, R156, R158) and the one free value. -/

namespace Sys2Proof.Config

/-- EDGE_X, the bed x at which the left edge of the roll runs, in counts (0-5.1). -/
def edgeX : Nat := 2000
/-- ORIGIN_Y, the bed y of the nominal start of the current window, in counts (0-5.1). -/
def originY : Nat := 10000
/-- Bed travel in x, in counts (0-3.2, R120). -/
def bedX : Nat := 165000
/-- Bed travel in y, in counts (0-3.2, R120). -/
def bedY : Nat := 260000
/-- Length of one vacuum zone along bed y, in counts (0-3.2, R93). -/
def zoneLength : Nat := 65000
/-- Blocks of the contour store (R8). -/
def blocks : Nat := 512
/-- Vertex places of one block (R8). -/
def blockPlaces : Nat := 32
/-- Greatest number of mark rows (R47, R49). -/
def maxRows : Nat := 100
/-- Greatest number of items of one worklist (R81). -/
def maxItems : Nat := 256
/-- Places of the motion queue (R117, R119). -/
def motionPlaces : Nat := 32
/-- Places of the inbound queue (R156). -/
def inboundPlaces : Nat := 8
/-- Places of the outbound queue (R158). -/
def outboundPlaces : Nat := 24
/-- Bytes a reply leaves for table entries after status, digest and read header (R166). -/
def tableBytes : Nat := 234
/-- Greatest coordinate a POINTS record may carry (R13). -/
def maxCoordinate : Nat := 2000000

/-- FREE VALUE (log 10, DESIGN CHOICE). The side the HELD notice names when both marks of the boundary
row have the same seam deviation: R60 reports "the side of the greater deviation" and states none for a
tie. `true` is LEFT. The argument is the square of the common deviation. No value can be proved of it. -/
opaque seamTieLeft : Nat → Bool

end Sys2Proof.Config
end

