-- ==== Sys2Proof/Machine/State.lean ====
section
/-! DEFINITION. The state of the CN-96, unit by unit (0-3), as plain data, and its value after a hardware reset. -/

namespace Sys2Proof.Machine

/-- A fixed number of like things: `n` cells, the cells' count proved once. -/
structure Table (α : Type) (n : Nat) where
  cells : List α
  size : cells.length = n
  deriving DecidableEq, Repr

/-- The cell numbered `i`. -/
def Table.get {α : Type} {n : Nat} (t : Table α n) (i : Fin n) : α :=
  t.cells[i.val]'(t.size.symm ▸ i.isLt)

/-- The table with cell `i` replaced. -/
def Table.set {α : Type} {n : Nat} (t : Table α n) (i : Fin n) (a : α) : Table α n :=
  ⟨t.cells.set i.val a, (List.length_set ..).trans t.size⟩

/-- The table with the same value in every cell. -/
def Table.fill {α : Type} (n : Nat) (a : α) : Table α n := ⟨List.replicate n a, List.length_replicate ..⟩

/-- The table whose cell `i` is `f i`. -/
def Table.ofFn {α : Type} {n : Nat} (f : Fin n → α) : Table α n := ⟨List.ofFn f, List.length_ofFn ..⟩

/-- The table with `f` applied to every cell and its number. -/
def Table.map {α : Type} {n : Nat} (t : Table α n) (f : Fin n → α → α) : Table α n :=
  Table.ofFn fun i => f i (t.get i)

/-! ### Panel store (chapter 1) -/

/-- The state of a slot (R1, R2). -/
inductive PanelState where
  | empty | loading | loaded | placed | cutting | cut | skipped
  deriving DecidableEq, Repr

/-- The lock of a slot (R1, R3). -/
inductive Lock where
  | free | pinned | committed
  deriving DecidableEq, Repr

/-- What the last nest run or hand placement made of a panel (R1, R35). -/
inductive NestOutcome where
  | none | placed | unfit | noRoom | fixed
  deriving DecidableEq, Repr

/-- A tool of the head. -/
inductive Tool where
  | kiss | thru
  deriving DecidableEq, Repr

/-- The rotation of a placement, 0 or 90 degrees. -/
inductive Rotation where
  | r0 | r90
  deriving DecidableEq, Repr

/-- A point in media coordinates, in counts (0-5.1). -/
structure Vertex where
  u : Nat
  v : Nat
  deriving DecidableEq, Repr

/-- The bounding box of an outline (R4). -/
structure BBox where
  minU : Nat
  minV : Nat
  width : Nat
  height : Nat
  deriving DecidableEq, Repr

/-- The position of a panel on the roll (R4). -/
structure Placement where
  x : Nat
  y : Nat
  rotation : Rotation
  deriving DecidableEq, Repr

/-- A slot record (R1). -/
structure Panel where
  state : PanelState
  lock : Lock
  label : List Byte
  tool : Tool
  weed : Bool
  rotateOk : Bool
  order : Nat
  passes : Nat
  bleed : Nat
  vertexCount : Nat
  bbox : Option BBox
  placement : Option Placement
  outcome : NestOutcome
  windowsLeft : Option Nat
  chain : List Nat
  deriving DecidableEq, Repr

/-- The empty record (R1). -/
def Panel.emptyRecord : Panel where
  state := .empty
  lock := .free
  label := []
  tool := .kiss
  weed := false
  rotateOk := false
  order := 0
  passes := 0
  bleed := 0
  vertexCount := 0
  bbox := none
  placement := none
  outcome := .none
  windowsLeft := none
  chain := []

/-- The error a stream latches (R10, R13). -/
inductive LoadError where
  | order | over | range
  deriving DecidableEq, Repr

/-- The open outline (R10): slot, expected count N, received count, latched error with the first index of the
record that caused it. -/
structure OpenOutline where
  slot : Slot
  expected : Nat
  received : Nat
  error : Option (LoadError × Nat)
  deriving DecidableEq, Repr

/-- The panel store. `contour` lists the vertex places that do not read (0, 0): place number (block × 32 + place)
and vertex, places strictly rising (R8, R9; log 5). -/
structure PanelStore where
  panels : Table Panel 96
  contour : List (Nat × Vertex)
  free : List Nat
  loader : Option OpenOutline
  deriving DecidableEq, Repr

/-! ### Nest unit (chapter 2) -/

/-- The layout parameters (R24), in counts. -/
structure LayoutParams where
  mediaWidth : Nat
  marginSide : Nat
  lead : Nat
  markPitch : Nat
  windowLength : Nat
  gap : Nat
  deriving DecidableEq, Repr

/-- A segment of the skyline (R26). -/
structure Seg where
  x : Nat
  width : Nat
  height : Nat
  deriving DecidableEq, Repr

/-- The outcome of a draft entry so far (R28). -/
inductive DraftOutcome where
  | pending
  | placed (p : Placement)
  | unfit
  | noRoom
  deriving DecidableEq, Repr

/-- One entry of the draft (R28). -/
structure DraftEntry where
  slot : Slot
  outcome : DraftOutcome
  deriving DecidableEq, Repr

/-- What the nest unit holds in RUNNING besides the skyline (R28). -/
structure NestRun where
  ordered : Bool
  draft : List DraftEntry
  next : Nat
  deriving DecidableEq, Repr

/-- The nest unit; `run = none` is IDLE (R28). -/
structure NestUnit where
  params : LayoutParams
  skyline : List Seg
  run : Option NestRun
  deriving DecidableEq, Repr

/-! ### Mark unit (chapter 3) -/

/-- The state of a mark (R50). -/
inductive MarkState where
  | unread | read | missed | set
  deriving DecidableEq, Repr

/-- The side of a mark. -/
inductive Side where
  | left | right
  deriving DecidableEq, Repr

/-- A point in bed coordinates, in counts (0-5.1). -/
structure BedPos where
  x : Int
  y : Int
  deriving DecidableEq, Repr

/-- A measured or previous position with its window (R50). -/
structure Measured where
  pos : BedPos
  window : Nat
  deriving DecidableEq, Repr

/-- A mark entry; its row, side and nominal position are its place in the table (R49, R50). -/
structure Mark where
  state : MarkState
  measured : Option Measured
  previous : Option Measured
  attempts : Nat
  deriving DecidableEq, Repr

/-- A mark added to the table (R50). -/
def Mark.fresh : Mark := ⟨.unread, none, none, 0⟩

/-- A mark row (R49). -/
structure MarkRow where
  left : Mark
  right : Mark
  deriving DecidableEq, Repr

/-- The four ratios of the geometry check (R61). -/
inductive RatioKind where
  | lowerWidth | upperWidth | leftHeight | rightHeight
  deriving DecidableEq, Repr

/-- The geometry result of a band (R51); a failure keeps the kind and the value in parts per million (R61). -/
inductive Geometry where
  | unchecked
  | ok
  | fail (kind : RatioKind) (ppm : Nat)
  deriving DecidableEq, Repr

/-- The row span of the current window (R52). -/
structure Span where
  first : Nat
  last : Nat
  deriving DecidableEq, Repr

/-- The seam pending record (R55): the window and the encoder advance. -/
structure SeamPending where
  window : Nat
  advance : Int
  deriving DecidableEq, Repr

/-- A rectangle of the bed, both corners included (R118). -/
structure Rect where
  x0 : Int
  y0 : Int
  x1 : Int
  y1 : Int
  deriving DecidableEq, Repr

/-- The search in flight (R56). -/
structure SearchInFlight where
  row : Nat
  side : Side
  attempt : Nat
  square : Rect
  deriving DecidableEq, Repr

/-- The mark unit: tables, working state (R70) and parameters (R54). Band i is the i-th of `bands`. -/
structure MarkUnit where
  rows : List MarkRow
  bands : List Geometry
  span : Option Span
  seam : Option SeamPending
  flight : Option SearchInFlight
  searchSize : Nat
  geomTol : Nat
  seamTol : Nat
  deriving DecidableEq, Repr

/-! ### Cut planner (chapter 4) -/

/-- The kind of an item (R79). -/
inductive ItemKind where
  | weed | outline
  deriving DecidableEq, Repr

/-- The state of an item (R79). -/
inductive ItemState where
  | pending | active | done | skipped
  deriving DecidableEq, Repr

/-- An item of the worklist (R79). -/
structure Item where
  slot : Slot
  kind : ItemKind
  tool : Tool
  first : Nat
  last : Nat
  entry : Option Vertex
  exit : Option Vertex
  segments : Nat
  passes : Nat
  passDone : Nat
  segDone : Nat
  state : ItemState
  deriving DecidableEq, Repr

/-- The issue pointer (R83); `item = none` is the end of the list. `reported` is the model's: the item's start
has been reported and answered go, and its TRAVEL has not been placed yet (log 7). -/
structure IssuePointer where
  item : Option Nat
  pass : Nat
  issued : Nat
  travelDue : Bool
  reported : Bool
  deriving DecidableEq, Repr

/-- The worklist (R74). `startPassed` is the start-passed mark and `stopped` the answer stop still standing (R84);
`weedDistance` and `lastRow` (the v of the last row) are the values the weed borders were built with (R73, R78,
log 8). -/
structure Worklist where
  window : Nat
  items : List Item
  completed : Bool
  issue : IssuePointer
  startPassed : Option Nat
  stopped : Bool
  weedDistance : Nat
  lastRow : Nat
  deriving DecidableEq, Repr

/-- The cut planner: its worklist and its parameters (R73, R74). -/
structure Planner where
  worklist : Option Worklist
  weedDistance : Nat
  kissPasses : Nat
  thruPasses : Nat
  deriving DecidableEq, Repr

/-! ### Cut cycle controller (chapters 5 and 8) -/

/-- The nine cycle states (R91). -/
inductive CycleState where
  | idle | homing | measuring | cutting | feeding | suspended | held | halted | testcut
  deriving DecidableEq, Repr

/-- The phase of MEASURING (R91). -/
inductive Phase where
  | settle | readying
  deriving DecidableEq, Repr

/-- The hold reasons (R92). -/
inductive HoldReason where
  | markMissed | markGeometry | seamDeviation | planFull | recover
  deriving DecidableEq, Repr

/-- A set of suspension reasons (R92). -/
structure Reasons where
  request : Bool
  step : Bool
  brk : Bool
  deriving DecidableEq, Repr

/-- No reason. -/
def Reasons.none : Reasons := ⟨false, false, false⟩

/-- Some reason is present. -/
def Reasons.any (r : Reasons) : Bool := r.request || r.step || r.brk

/-- Where a suspended run goes on (R92, R107). -/
inductive ResumePoint where
  | settle | continue | feed
  deriving DecidableEq, Repr

/-- The suspension record in SUSPENDED: reasons taken, HALT breakpoints that matched (bit n for entry n), resume
point (R92, R105). -/
structure Taken where
  reasons : Reasons
  halts : BitVec 4
  resume : ResumePoint
  deriving DecidableEq, Repr

/-- The kind of a breakpoint with its argument (R106). -/
inductive BreakKind where
  | off
  | panelStart (slot : Nat)
  | windowStart (window : Nat)
  | item
  | band (band : Nat)
  deriving DecidableEq, Repr

/-- The action of a breakpoint (R106). -/
inductive BreakAction where
  | halt | notify
  deriving DecidableEq, Repr

/-- A breakpoint entry (R106). -/
structure Breakpoint where
  kind : BreakKind
  action : BreakAction
  deriving DecidableEq, Repr

/-- The state before TESTCUT, with its hold reason or suspension record (R92, R113). -/
structure Before where
  state : CycleState
  hold : Option HoldReason
  taken : Option Taken
  deriving DecidableEq, Repr

/-- Which feed is in hand: a run feed (R99), an owed feed (R95, R109), or a FEED request's (R115). -/
inductive FeedKind where
  | run | owed | request
  deriving DecidableEq, Repr

/-- The feed in hand and the number of windows it is to advance (R92, R95, R100, R115). -/
structure FeedJob where
  kind : FeedKind
  windows : Nat
  deriving DecidableEq, Repr

/-- The kinds of fault (R144). -/
inductive FaultKind where
  | estop | guard | vacuumLost | mediaSlip | mediaEnd | motionLimit | homeFail | linkClear
  deriving DecidableEq, Repr

/-- The kind of a queue entry (R118). -/
inductive EntryKind where
  | travel | cut | search | home | feed
  deriving DecidableEq, Repr

/-- The detail of a fault (R144). -/
inductive FaultDetail where
  /-- ESTOP and LINK_CLEAR carry none. -/
  | none
  /-- GUARD: the kind of the entry executing or being taken. -/
  | guard (entry : EntryKind)
  /-- VACUUM_LOST: SETTLE when `atSettle`, FALL otherwise. -/
  | vacuum (atSettle : Bool)
  /-- MEDIA_SLIP: TOLERANCE when `tolerance`, TIMER otherwise; commanded distance and encoder count. -/
  | slip (tolerance : Bool) (commanded encoder : Int)
  /-- MEDIA_END: DURING when `during`, AT_TAKE otherwise; commanded distance and encoder count. -/
  | mediaEnd (during : Bool) (commanded encoder : Int)
  /-- MOTION_LIMIT: entry kind, target, whether the homed flag was clear. -/
  | limit (entry : EntryKind) (target : BedPos) (homedClear : Bool)
  /-- HOME_FAIL: the axis. -/
  | axis (axis : Axis)
  deriving DecidableEq, Repr

/-- What qualifies the state at entry (R146): hold reason, resume point, or the state a test cut was to return to. -/
inductive StateQualifier where
  | none
  | hold (r : HoldReason)
  | resume (p : ResumePoint)
  | testReturn (s : CycleState)
  deriving DecidableEq, Repr

/-- An occupied fault record (R146). -/
structure FaultRecord where
  kind : FaultKind
  detail : FaultDetail
  stateAtEntry : CycleState
  qualifier : StateQualifier
  window : Nat
  itemSlot : Option (Nat × Slot)
  head : Option BedPos
  followOn : Nat
  lastFollowOn : Option FaultKind
  deriving DecidableEq, Repr

/-- The cut cycle controller (R92, R93, R106, R146). `reasons` and `halts` are the pending part of the suspension
record, `taken` its part in SUSPENDED; `fault = none` is the empty fault record. -/
structure CycleControl where
  state : CycleState
  phase : Phase
  hold : Option HoldReason
  reasons : Reasons
  halts : BitVec 4
  taken : Option Taken
  before : Option Before
  runActive : Bool
  stopPending : Bool
  pointer : Nat
  remainder : Int
  owed : Nat
  breakpoints : Table Breakpoint 4
  step : Bool
  settleTimer : Option Nat
  vacSettle : Nat
  feedJob : Option FeedJob
  testCuts : Nat
  fault : Option FaultRecord
  deriving DecidableEq, Repr

/-! ### Motion unit (chapter 6) -/

/-- The units that place queue entries (R118). -/
inductive Producer where
  | planner | mark | cycle
  deriving DecidableEq, Repr

/-- What a PLANNER CUT entry carries for its completion (R83, R118). -/
structure CutRef where
  item : Nat
  pass : Nat
  segment : Nat
  deriving DecidableEq, Repr

/-- A queue entry (R118). SEARCH is always the mark unit's, HOME and FEED the cycle controller's; a CUT is the
planner's when it carries a reference and the test cut's when it does not. -/
inductive Entry where
  | travel (producer : Producer) (target : BedPos)
  | cut (tool : Tool) (target : BedPos) (ref : Option CutRef)
  | search (rect : Rect)
  | home
  | feed (distance : Nat)
  deriving DecidableEq, Repr

/-- The motion unit's parameters (R122). -/
structure MotionParams where
  kissPressure : Nat
  thruPressure : Nat
  kissSpeed : Nat
  thruSpeed : Nat
  travelSpeed : Nat
  slipTol : Nat
  feedGuardTime : Nat
  deriving DecidableEq, Repr

/-- A tool's state (R117). -/
inductive ToolState where
  | raised | lowered
  deriving DecidableEq, Repr

/-- Which axes are home in the executing HOME entry (R125). -/
structure Homing where
  xHome : Bool
  yHome : Bool
  deriving DecidableEq, Repr

/-- The motion unit (R117). The executing entry is the head of the queue while `executing`. `speed` is the speed
parameter read when the executing entry was taken (R122). -/
structure MotionUnit where
  queue : List Entry
  executing : Bool
  head : Option BedPos
  homed : Bool
  kiss : ToolState
  thru : ToolState
  speed : Option Nat
  commanded : Option Nat
  encoder : Int
  guardTimer : Option Nat
  homing : Option Homing
  params : MotionParams
  deriving DecidableEq, Repr

/-! ### Bed I/O unit (chapter 7) -/

/-- A filter setting (R132). -/
inductive Filter where
  | none | f2 | f8 | f32
  deriving DecidableEq, Repr

/-- One input line: taken level, wire level, filter and its timer, enables, and its pairs of the change set
(R131 to R134). -/
structure Line where
  taken : Bool
  wire : Bool
  filter : Filter
  timer : Option Nat
  riseEn : Bool
  fallEn : Bool
  riseChange : Bool
  fallChange : Bool
  deriving DecidableEq, Repr

/-- VAC_SAFE of a zone (R143). -/
inductive VacSafe where
  | hold | release
  deriving DecidableEq, Repr

/-- The bed I/O unit: input lines, output state (R141; a tool line is off or on with a pressure), VAC_SAFE. -/
structure BedIO where
  lines : Table Line 8
  toolKiss : Option Nat
  toolThru : Option Nat
  zones : Table Bool 4
  feedDrive : Bool
  beacon : Bool
  vacSafe : Table VacSafe 4
  deriving DecidableEq, Repr

/-! ### Link port (chapters 9 and 10) -/

/-- The receiver (R155): hunting, or in a frame with the bytes received after START, oldest first, and whether a
character of the frame had a stop-bit error. -/
inductive Receiver where
  | hunting
  | inFrame (bytes : List Byte) (stopError : Bool)
  deriving DecidableEq, Repr

/-- How a record was damaged: R155's mark on a frame that ended wrong. -/
inductive Damage where
  | truncated | check | framing
  deriving DecidableEq, Repr

/-- A record of the inbound queue (R155, R156): body bytes received, damage mark if any, overrun mark with its count. -/
structure InRecord where
  body : List Byte
  damage : Option Damage
  mark : Option Nat
  deriving DecidableEq, Repr

/-- A record of the outbound queue (R154, R158). `rate` is the link rate that takes effect when its last byte has
been sent: only the reply of a SET_LINK that was taken carries one (R153). -/
structure OutRecord where
  kind : Byte
  tag : Byte
  payload : List Byte
  rate : Option (Fin 4)
  deriving DecidableEq, Repr

/-- The item of the watch (R168). -/
inductive WatchItem where
  | off | position | cycle | queues | panel
  deriving DecidableEq, Repr

/-- The watch selection (R168). -/
structure WatchSelection where
  item : WatchItem
  slot : Byte
  period : Nat
  deriving DecidableEq, Repr

/-- The tables of R166. -/
inductive TableName where
  | panels | marks | bands | items | skyline | inputs | breakpoints | fault
  deriving DecidableEq, Repr

/-- A table-read cursor that is not none (R166, R167); `slot` is read by qualifiers 2 and 3 of PANELS; `ended` says that
the read has given END, after which READ_NEXT gives no entry and END (R166). -/
structure TableCursor where
  table : TableName
  qualifier : Nat
  slot : Nat
  index : Nat
  ended : Bool
  deriving DecidableEq, Repr

/-- The link port. `armed` says that the next 10 ms of low line is a link clear (R160). `formed` holds, inside one
command, the notices its action has caused, to be queued behind its reply (R157 step 5, log 6); it is empty
between commands. -/
structure LinkPort where
  rate : Fin 4
  receiver : Receiver
  inbound : List InRecord
  overrun : Nat
  outbound : List OutRecord
  dropped : Bool
  watch : WatchSelection
  watchTimer : Option Nat
  cursor : Option TableCursor
  armed : Bool
  formed : List OutRecord
  deriving DecidableEq, Repr

/-! ### The machine -/

/-- The state of the CN-96: its eight units (0-3) and the queue of the commands that wait (log 25). -/
structure State where
  pending : List Instr
  link : LinkPort
  store : PanelStore
  nest : NestUnit
  marks : MarkUnit
  plan : Planner
  cycle : CycleControl
  motion : MotionUnit
  bed : BedIO
  deriving DecidableEq, Repr

/-- Reasons for which the model would stop with a fault. The CN-96's own faults (R144) are next states in HALTED,
not stops: no command of the table stops the model. -/
inductive Fault where
  /-- Raised by no command; it keeps the type inhabited. Safe: nothing answers with it. -/
  | neverRaised
  deriving DecidableEq, Repr

/-- Reasons for which the model refuses a command. -/
inductive Refusal where
  /-- A command whose meaning has not been written: raised by no arm of this model. Safe. -/
  | notModelled (mnemonic : String)
  deriving DecidableEq, Repr

/-- The layout parameters' defaults (R24). -/
def LayoutParams.reset : LayoutParams := ⟨137000, 1500, 5000, 50000, 125000, 600⟩

/-- The panel store after a reset (R19); its vertex places read (0, 0) (log 5). -/
def PanelStore.reset : PanelStore where
  panels := Table.fill 96 Panel.emptyRecord
  contour := []
  free := List.range Config.blocks
  loader := none

/-- The nest unit after a reset (R38). -/
def NestUnit.reset : NestUnit := ⟨LayoutParams.reset, [], none⟩

/-- The mark unit after a reset (R49, R54, R70). -/
def MarkUnit.reset : MarkUnit := ⟨[], [], none, none, none, 2000, 100, 50⟩

/-- The planner after a reset (R73, R74). -/
def Planner.reset : Planner := ⟨none, 500, 1, 2⟩

/-- The cycle controller after a reset (R91 to R93, R106, R146; the model's own fields log 27). -/
def CycleControl.reset : CycleControl where
  state := .idle
  phase := .settle
  hold := none
  reasons := Reasons.none
  halts := 0
  taken := none
  before := none
  runActive := false
  stopPending := false
  pointer := 0
  remainder := 0
  owed := 0
  breakpoints := Table.fill 4 ⟨.off, .notify⟩
  step := false
  settleTimer := none
  vacSettle := 800
  feedJob := none
  testCuts := 0
  fault := none

/-- The motion unit after a reset (R117, R122). -/
def MotionUnit.reset : MotionUnit where
  queue := []
  executing := false
  head := none
  homed := false
  kiss := .raised
  thru := .raised
  speed := none
  commanded := none
  encoder := 0
  guardTimer := none
  homing := none
  params := ⟨120, 600, 400, 200, 800, 100, 300⟩

/-- An input line as a reset leaves it, its wire at `level` (R131 to R134). -/
def Line.reset (level : Bool) : Line := ⟨level, level, .f8, none, false, false, false, false⟩

/-- The bed I/O unit after a reset with the wires at the levels of `wires`, bit n for line n (R131, R143). -/
def BedIO.reset (wires : Byte) : BedIO where
  lines := Table.ofFn fun i => Line.reset (wires.getLsbD i.val)
  toolKiss := none
  toolThru := none
  zones := Table.fill 4 false
  feedDrive := false
  beacon := false
  vacSafe := Table.fill 4 .hold

/-- The STARTED notice (R161, R164). -/
def startedRecord (cause : ResetCause) : OutRecord :=
  ⟨0x60, 0, [match cause with | .powerOn => 0 | .resetLine => 1, 0], none⟩

/-- The link port after a reset: as a link clear leaves it, then STARTED is queued (R161). -/
def LinkPort.reset (cause : ResetCause) : LinkPort where
  rate := 0
  receiver := .hunting
  inbound := []
  overrun := 0
  outbound := [startedRecord cause]
  dropped := false
  watch := ⟨.off, 0, 0⟩
  watchTimer := none
  cursor := none
  armed := true
  formed := []

/-- The machine right after a reset with this cause and these wire levels (R161). -/
def State.afterReset (cause : ResetCause) (wires : Byte) : State where
  pending := []
  link := LinkPort.reset cause
  store := PanelStore.reset
  nest := NestUnit.reset
  marks := MarkUnit.reset
  plan := Planner.reset
  cycle := CycleControl.reset
  motion := MotionUnit.reset
  bed := BedIO.reset wires

/-- The machine right after a power-on reset with every wire at level 0 (log 4). -/
def State.reset : State := State.afterReset .powerOn 0

end Sys2Proof.Machine
end

