-- ==== Sys2Proof/Machine/Layout.lean ====
section
/-! DEFINITION. Geometry reckoned from the layout parameters and the panel table: usable area, print extents and
footprints, mark rows, windows, vacuum zones, bands of points and their correction. -/

namespace Sys2Proof.Machine

/-! ### The usable area and the rows (R23, R47, R49) -/

/-- XL (R23). -/
def LayoutParams.xl (p : LayoutParams) : Nat := p.marginSide
/-- XR (R23). -/
def LayoutParams.xr (p : LayoutParams) : Nat := p.mediaWidth - p.marginSide
/-- YMAX (R23). -/
def LayoutParams.ymax (p : LayoutParams) : Nat := p.lead + 99 * p.markPitch
/-- The v of row `r` (R47). -/
def LayoutParams.rowV (p : LayoutParams) (r : Nat) : Nat := p.lead + r * p.markPitch
/-- uL, rounded by the convention of 0-5.2 (R49). -/
def LayoutParams.uLeft (p : LayoutParams) : Nat := (p.marginSide + 1) / 2
/-- uR, rounded by the convention of 0-5.2 (R49). -/
def LayoutParams.uRight (p : LayoutParams) : Nat := p.mediaWidth - p.marginSide / 2
/-- The nominal spacing uR − uL (R49). -/
def LayoutParams.spacing (p : LayoutParams) : Nat := p.uRight - p.uLeft

/-! ### Windows (R44, R71) -/

/-- m, the rows per window (R71). -/
def LayoutParams.rowsPerWindow (p : LayoutParams) : Nat := p.windowLength / p.markPitch
/-- The nominal advance from one window to the next (R71). -/
def LayoutParams.advance (p : LayoutParams) : Nat := p.rowsPerWindow * p.markPitch
/-- V_k, the nominal start of window `k` (R71). -/
def LayoutParams.windowStart (p : LayoutParams) (k : Nat) : Nat := p.lead + k * p.advance

/-- The window count for a row count (R71). -/
def windowCountOf (p : LayoutParams) (rowCount : Nat) : Nat :=
  if rowCount < 2 then 0 else ceilDiv (rowCount - 1) p.rowsPerWindow

/-! ### Panels: print extent, footprint, windows met (R4, R25, R72) -/

/-- ew0 (R4). -/
def Panel.ew0 (p : Panel) : Nat := match p.bbox with
  | some b => b.width + 2 * p.bleed
  | none => 0
/-- eh0 (R4). -/
def Panel.eh0 (p : Panel) : Nat := match p.bbox with
  | some b => b.height + 2 * p.bleed
  | none => 0
/-- ew for a rotation (R4). -/
def Panel.ew (p : Panel) (r : Rotation) : Nat := match r with
  | .r0 => p.ew0
  | .r90 => p.eh0
/-- eh for a rotation (R4). -/
def Panel.eh (p : Panel) (r : Rotation) : Nat := match r with
  | .r0 => p.eh0
  | .r90 => p.ew0

/-- The panel's print extent at a placement lies within the usable area (R23). -/
def fitsUsable (lp : LayoutParams) (p : Panel) (pl : Placement) : Bool :=
  lp.xl ≤ pl.x && pl.x + p.ew pl.rotation ≤ lp.xr && lp.lead ≤ pl.y && pl.y + p.eh pl.rotation ≤ lp.ymax

/-- Two half-open ranges share a count. -/
def rangesMeet (a b c d : Nat) : Bool := a < d && c < b

/-- Two footprints meet (R4, R40). -/
def footprintsMeet (lp : LayoutParams) (p : Panel) (pl : Placement) (q : Panel) (ql : Placement) : Bool :=
  rangesMeet pl.x (pl.x + p.ew pl.rotation + lp.gap) ql.x (ql.x + q.ew ql.rotation + lp.gap) &&
  rangesMeet pl.y (pl.y + p.eh pl.rotation + lp.gap) ql.y (ql.y + q.eh ql.rotation + lp.gap)

/-- The last v of the print extent, y + eh, when the panel holds a placement. -/
def Panel.extentEnd (p : Panel) : Option Nat := p.placement.map fun pl => pl.y + p.eh pl.rotation

/-- The rows a placed panel needs (R47); 0 for a panel without a placement. -/
def Panel.rowsNeeded (lp : LayoutParams) (p : Panel) : Nat := match p.extentEnd with
  | some e => ceilDiv (e - lp.lead) lp.markPitch + 1
  | none => 0

/-- The row count of a layout (R47). -/
def rowCountOf (lp : LayoutParams) (panels : List Panel) : Nat := maxOf (panels.map (·.rowsNeeded lp))

/-- The layout end (R36). -/
def layoutEnd (panels : List Panel) : Nat := maxOf (panels.map fun p => p.extentEnd.getD 0)

/-- The panel meets window `j` (R72). -/
def Panel.meets (lp : LayoutParams) (p : Panel) (j : Nat) : Bool := match p.placement with
  | some pl => pl.y < lp.windowStart (j + 1) && lp.windowStart j < pl.y + p.eh pl.rotation
  | none => false

/-- f, the first window a placed panel meets (R72). -/
def Panel.firstWindow (lp : LayoutParams) (p : Panel) : Nat := match p.placement with
  | some pl => (pl.y - lp.lead) / lp.advance
  | none => 0

/-- l, the last window a placed panel meets (R72). -/
def Panel.lastWindow (lp : LayoutParams) (p : Panel) : Nat := match p.extentEnd with
  | some e => (e - 1 - lp.lead) / lp.advance
  | none => 0

/-- The panel is COMMITTED and in PLACED or CUTTING: what the cut still has to reach (R75, R88, R95). -/
def Panel.toCut (p : Panel) : Bool := p.lock = .committed && (p.state = .placed || p.state = .cutting)

/-- A panel still to cut meets a window at or after `j` (R88, R95). -/
def anyToCutFrom (lp : LayoutParams) (panels : List Panel) (j : Nat) : Bool :=
  panels.any fun p => p.toCut && p.placement.isSome && j ≤ p.lastWindow lp

/-- An outline vertex (a, b) mapped to the roll by a placement (R5). -/
def Panel.mapVertex (p : Panel) (pl : Placement) (w : Vertex) : Vertex := match p.bbox with
  | none => w
  | some b => match pl.rotation with
    | .r0 => ⟨pl.x + (w.u - b.minU) + p.bleed, pl.y + (w.v - b.minV) + p.bleed⟩
    | .r90 => ⟨pl.x + (b.minV + b.height - w.v) + p.bleed, pl.y + (w.u - b.minU) + p.bleed⟩

/-! ### Views of the state -/

/-- The row count: the rows the mark unit holds (R48, R49). -/
def State.rowCount (s : State) : Nat := s.marks.rows.length

/-- The window count (R71). -/
def State.windowCount (s : State) : Nat := windowCountOf s.nest.params s.rowCount

/-- b, the number of windows built (R44). -/
def State.windowsBuilt (s : State) : Nat := match s.plan.worklist with
  | some w => if w.window = s.cycle.pointer then s.cycle.pointer + 1 else s.cycle.pointer
  | none => s.cycle.pointer

/-- The panel's print extent reaches into a built window (R44). -/
def State.reachesBuilt (s : State) (p : Panel) : Bool := match p.placement with
  | some pl => 1 ≤ s.windowsBuilt && pl.y < s.nest.params.windowStart s.windowsBuilt
  | none => false

/-- The rows of the window at the pointer when no span is fixed, and the span of an opening (R52): k·m to the
lesser of k·m + m and the last row; none when row k·m does not exist. -/
def State.windowSpan (s : State) : Option Span :=
  let m := s.nest.params.rowsPerWindow
  let first := s.cycle.pointer * m
  if first < s.rowCount then some ⟨first, min (first + m) (s.rowCount - 1)⟩ else none

/-- The rows of the current window: the span, or the window's rows when no span is fixed (R52). -/
def State.currentRows (s : State) : Option Span := match s.marks.span with
  | some sp => some sp
  | none => s.windowSpan

/-- The vacuum zones of a window (R93). -/
def windowZone (lp : LayoutParams) (z : Fin 4) : Bool :=
  Config.zoneLength * z.val ≤ Config.originY + lp.advance && Config.originY < Config.zoneLength * (z.val + 1)

/-- The position lies within the bed travel (R120). -/
def BedPos.onBed (p : BedPos) : Bool := 0 ≤ p.x && p.x ≤ Config.bedX && 0 ≤ p.y && p.y ≤ Config.bedY

/-! ### Marks: nominal bed positions (R49, R53) -/

/-- The entry of a side. -/
def MarkRow.get (r : MarkRow) : Side → Mark
  | .left => r.left
  | .right => r.right

/-- The row with one entry replaced. -/
def MarkRow.set (r : MarkRow) (side : Side) (m : Mark) : MarkRow := match side with
  | .left => { r with left := m }
  | .right => { r with right := m }

/-- The nominal u of a side's marks (R49). -/
def LayoutParams.sideU (p : LayoutParams) : Side → Nat
  | .left => p.uLeft
  | .right => p.uRight

/-- The nominal bed position of a mark in window `k` (R53). -/
def nominalBed (p : LayoutParams) (k row : Nat) (side : Side) : BedPos :=
  ⟨Config.edgeX + p.sideU side, (Config.originY : Int) + p.rowV row - p.windowStart k⟩

/-! ### The band of a point and its correction (R51, R64, R65) -/

/-- The mark is READ or SET. -/
def Mark.held (m : Mark) : Bool := m.state = .read || m.state = .set

/-- The four marks of band `i`, left and right of row i then of row i + 1 (R51). -/
def MarkUnit.bandMarks (mu : MarkUnit) (i : Nat) : Option (Mark × Mark × Mark × Mark) :=
  match mu.rows[i]?, mu.rows[i + 1]? with
  | some a, some b => some (a.left, a.right, b.left, b.right)
  | _, _ => none

/-- The band is usable (R51). -/
def MarkUnit.usable (mu : MarkUnit) (i : Nat) : Bool :=
  match mu.bands[i]?, mu.bandMarks i with
  | some .ok, some (a, b, c, d) => a.held && b.held && c.held && d.held
  | _, _ => false

/-- The band of a point by its v within a span (R64); `none` when v lies outside the span's rows. -/
def bandOf (p : LayoutParams) (sp : Span) (v : Nat) : Option Nat :=
  if v < p.lead then none
  else
    let q := (v - p.lead) / p.markPitch
    let i := if (v - p.lead) % p.markPitch = 0 ∧ q = sp.last then q - 1 else q
    if sp.first ≤ i ∧ i < sp.last ∧ (v - p.lead) ≤ sp.last * p.markPitch then some i else none

/-- The bilinear blend of one coordinate (R65): `a` over `sp` across, `b` over `pitch` along, exact until the last
rounding. -/
def blend (sp pitch : Nat) (a b : Int) (l r l' r' : Int) : Int :=
  roundDiv ((sp - a) * (pitch - b) * l + a * (pitch - b) * r + (sp - a) * b * l' + a * b * r') (sp * pitch)

/-- The corrected bed position of a media point in band `i` (R65); `none` when a mark holds no position. -/
def correctIn (p : LayoutParams) (mu : MarkUnit) (i : Nat) (pt : Vertex) : Option BedPos :=
  match mu.bandMarks i with
  | some (⟨_, some l, _, _⟩, ⟨_, some r, _, _⟩, ⟨_, some l', _, _⟩, ⟨_, some r', _, _⟩) =>
    let a : Int := (pt.u : Int) - p.uLeft
    let b : Int := (pt.v : Int) - p.rowV i
    some ⟨blend p.spacing p.markPitch a b l.pos.x r.pos.x l'.pos.x r'.pos.x,
      blend p.spacing p.markPitch a b l.pos.y r.pos.y l'.pos.y r'.pos.y⟩
  | _ => none

/-- The mark unit's answer to the planner: the corrected point, or a refusal when the point lies outside the span
or its band is not usable (R64, R65). -/
def State.correct (s : State) (pt : Vertex) : Option BedPos := match s.marks.span with
  | none => none
  | some sp => match bandOf s.nest.params sp pt.v with
    | none => none
    | some i => if s.marks.usable i then correctIn s.nest.params s.marks i pt else none

end Sys2Proof.Machine
end

