-- ==== Sys2Proof/Machine/Marks.lean ====
section
/-! DEFINITION. The mark and band tables: openings, invalidation, row counts, single marks, and the seam and geometry
checks (R48 to R63), each as a function of the mark unit alone. -/

namespace Sys2Proof.Machine

/-! ### The tables -/

/-- Two entries agree in state and measured position: what R51 watches. -/
def Mark.sameReading (a b : Mark) : Bool := a.state = b.state && a.measured = b.measured

/-- A mark of row `i` differs in state or measured position between two tables. -/
def readingChanged (old new : List MarkRow) (i : Nat) : Bool :=
  match old[i]?, new[i]? with
  | some a, some b => !(a.left.sameReading b.left && a.right.sameReading b.right)
  | some _, none => true
  | none, some _ => true
  | none, none => false

/-- New mark entries for the same rows; every band one of whose marks changed state or measured position becomes
UNCHECKED (R51). -/
def MarkUnit.withRows (mu : MarkUnit) (rows : List MarkRow) : MarkUnit :=
  { mu with
    rows := rows
    bands := mu.bands.mapIdx fun i g =>
      if readingChanged mu.rows rows i || readingChanged mu.rows rows (i + 1) then .unchecked else g }

/-- The row belongs to the span. -/
def Span.has (sp : Span) (row : Nat) : Bool := sp.first ≤ row && row ≤ sp.last

/-- `f` applied to every mark of a span. -/
def mapSpan (sp : Span) (f : Mark → Mark) (rows : List MarkRow) : List MarkRow :=
  rows.mapIdx fun i r => if sp.has i then ⟨f r.left, f r.right⟩ else r

/-- Every band of a span takes geometry UNCHECKED. -/
def MarkUnit.uncheckSpan (mu : MarkUnit) (sp : Span) : MarkUnit :=
  { mu with bands := mu.bands.mapIdx fun i g => if sp.first ≤ i && i < sp.last then .unchecked else g }

/-- The entry of a mark, when its row exists. -/
def MarkUnit.mark (mu : MarkUnit) (row : Nat) (side : Side) : Option Mark := (mu.rows[row]?).map (·.get side)

/-- One mark replaced (R51 watches the change). -/
def MarkUnit.setMark (mu : MarkUnit) (row : Nat) (side : Side) (m : Mark) : MarkUnit :=
  match mu.rows[row]? with
  | some r => mu.withRows (mu.rows.set row (r.set side m))
  | none => mu

/-- The bands that contain a row take geometry UNCHECKED (R57, R66). -/
def MarkUnit.uncheckRow (mu : MarkUnit) (row : Nat) : MarkUnit :=
  { mu with bands := mu.bands.mapIdx fun i g => if i = row || i + 1 = row then .unchecked else g }

/-! ### Row counts (R48, R52, R57) -/

/-- Applies a row count: rows below both counts keep their entries, others are discarded or added UNREAD; bands
follow; a fixed span loses the rows discarded, and is empty when its first row goes; a search in flight whose row
goes is forgotten. -/
def MarkUnit.applyRowCount (mu : MarkUnit) (n : Nat) : MarkUnit :=
  { mu with
    rows := mu.rows.take n ++ List.replicate (n - mu.rows.length) ⟨Mark.fresh, Mark.fresh⟩
    bands := mu.bands.take (n - 1) ++ List.replicate (n - 1 - mu.bands.length) .unchecked
    span := match mu.span with
      | some sp => if n ≤ sp.first then none else some ⟨sp.first, min sp.last (n - 1)⟩
      | none => none
    flight := match mu.flight with
      | some f => if n ≤ f.row then none else some f
      | none => none }

/-! ### Opening, invalidation, continuation (R55, R59, R63) -/

/-- A mark at an opening of window `k`: UNREAD with attempts 0, a position from an earlier window kept as the
previous one (R55). -/
def Mark.atOpening (k : Nat) (m : Mark) : Mark :=
  if m.state = .unread then { m with attempts := 0 }
  else match m.measured with
    | some q =>
      if q.window < k then ⟨.unread, none, some q, 0⟩ else ⟨.unread, none, m.previous, 0⟩
    | none => ⟨.unread, none, m.previous, 0⟩

/-- Opens window `k` with the row span given (R55); `advance` is the encoder advance of a completed feed. -/
def MarkUnit.openWindow (mu : MarkUnit) (k : Nat) (span : Option Span) (advance : Option Int) : MarkUnit :=
  let opened := match span with
    | some sp => (mu.withRows (mapSpan sp (Mark.atOpening k) mu.rows)).uncheckSpan sp
    | none => mu
  { opened with
    span := span
    flight := none
    seam := match advance with
      | some a => if 0 < k then some ⟨k, a⟩ else none
      | none => none }

/-- A mark made UNREAD with attempts 0, its measured position discarded and its previous position kept (R63). -/
def Mark.unread (m : Mark) : Mark := ⟨.unread, none, m.previous, 0⟩

/-- The marks of `sp` become UNREAD and its bands UNCHECKED (R63, R69). -/
def MarkUnit.unreadSpan (mu : MarkUnit) (sp : Option Span) : MarkUnit := match sp with
  | some sp => (mu.withRows (mapSpan sp Mark.unread mu.rows)).uncheckSpan sp
  | none => mu

/-- Invalidates the window whose rows are `sp` (R63). -/
def MarkUnit.invalidate (mu : MarkUnit) (sp : Option Span) : MarkUnit :=
  { mu.unreadSpan sp with flight := none, seam := none }

/-- A mark at a continuation: MISSED becomes UNREAD with attempts 0 (R59). -/
def Mark.atContinuation (m : Mark) : Mark :=
  if m.state = .missed then { m with state := .unread, attempts := 0 } else m

/-- The marks of the span at a continuation (R59). -/
def MarkUnit.continued (mu : MarkUnit) : MarkUnit := match mu.span with
  | some sp => mu.withRows (mapSpan sp Mark.atContinuation mu.rows)
  | none => mu

/-- A mark given by the host (R66): SET at a position in window `k`; a position from an earlier window moves into
the previous field; attempts kept. -/
def Mark.given (k : Nat) (pos : BedPos) (m : Mark) : Mark :=
  { m with
    state := .set
    measured := some ⟨pos, k⟩
    previous := match m.measured with
      | some q => if q.window < k then some q else m.previous
      | none => m.previous }

/-! ### Choosing marks (R56) -/

/-- The marks of a span in ascending row, LEFT before RIGHT. -/
def spanMarks (sp : Span) : List (Nat × Side) :=
  (List.range (sp.last + 1 - sp.first)).flatMap fun d => [(sp.first + d, .left), (sp.first + d, .right)]

/-- The first mark of the span in a state (R56). -/
def MarkUnit.firstIn (mu : MarkUnit) (st : MarkState) : Option (Nat × Side) := match mu.span with
  | some sp => (spanMarks sp).find? fun q => ((mu.mark q.1 q.2).map (·.state)) = some st
  | none => none

/-- The offset of the same side's mark on the row below, when that row belongs to the span and its mark is READ or
SET (R56). -/
def MarkUnit.offsetBelow (mu : MarkUnit) (p : LayoutParams) (k row : Nat) (side : Side) : BedPos :=
  match mu.span with
  | none => ⟨0, 0⟩
  | some sp =>
    if 0 < row && sp.has (row - 1) then
      match mu.mark (row - 1) side with
      | some m => match m.held, m.measured with
        | true, some q =>
          let nom := nominalBed p k (row - 1) side
          ⟨q.pos.x - nom.x, q.pos.y - nom.y⟩
        | _, _ => ⟨0, 0⟩
      | none => ⟨0, 0⟩
    else ⟨0, 0⟩

/-- The search centre (R56). -/
def MarkUnit.searchCentre (mu : MarkUnit) (p : LayoutParams) (k row : Nat) (side : Side) : BedPos :=
  let nom := nominalBed p k row side
  let off := mu.offsetBelow p k row side
  ⟨nom.x + off.x, nom.y + off.y⟩

/-- The square of a search: side SEARCH_SIZE at attempts 0 and twice that at 1, corners rounded to whole counts
(R56; log 15). -/
def searchSquare (size attempts : Nat) (c : BedPos) : Rect :=
  let side : Int := if attempts = 0 then size else 2 * size
  ⟨roundDiv (2 * c.x - side) 2, roundDiv (2 * c.y - side) 2, roundDiv (2 * c.x + side) 2,
    roundDiv (2 * c.y + side) 2⟩

/-- The part of a square within the bed travel; `none` when the intersection is empty (R56). -/
def clipToBed (r : Rect) : Option Rect :=
  let c : Rect := ⟨max r.x0 0, max r.y0 0, min r.x1 Config.bedX, min r.y1 Config.bedY⟩
  if c.x0 ≤ c.x1 ∧ c.y0 ≤ c.y1 then some c else none

/-! ### The seam check (R60) -/

/-- The square of the distance between two bed positions. -/
def distSq (a b : BedPos) : Nat := ((a.x - b.x) * (a.x - b.x) + (a.y - b.y) * (a.y - b.y)).toNat

/-- The square of a mark's seam deviation, when its previous position was taken in window k − 1 (R60). -/
def seamDevSq (sp : SeamPending) (m : Mark) : Option Nat := match m.previous, m.measured with
  | some q, some now =>
    if q.window + 1 = sp.window then some (distSq now.pos ⟨q.pos.x, q.pos.y - sp.advance⟩) else none
  | _, _ => none

/-- The greater of the deviations of the marks taken, squared, with its side; a tie's side is a free value
(log 10). -/
def greaterDev : Option Nat → Option Nat → Option (Nat × Side)
  | some l, some r =>
    if r < l then some (l, .left)
    else if l < r then some (r, .right)
    else some (l, if Config.seamTieLeft l then .left else .right)
  | some l, none => some (l, .left)
  | none, some r => some (r, .right)
  | none, none => none

/-- The squared seam deviation and its side when it is greater than SEAM_TOL; `none` when the check passes or is
not made (R60). -/
def MarkUnit.seamFailure (mu : MarkUnit) : Option (Nat × Side) := match mu.seam, mu.span with
  | some pend, some sp => match mu.rows[sp.first]? with
    | some row => match greaterDev (seamDevSq pend row.left) (seamDevSq pend row.right) with
      | some (d, side) => if mu.seamTol * mu.seamTol < d then some (d, side) else none
      | none => none
    | none => none
  | _, _ => none

/-! ### The geometry check (R61) -/

/-- A width ratio: |xR − xL| over the nominal spacing lies within 1 ± GEOM_TOL, exactly. -/
def widthOk (spacing tol w : Nat) : Bool :=
  (10000 - tol) * spacing ≤ 10000 * w && 10000 * w ≤ (10000 + tol) * spacing

/-- A width ratio in parts per million, rounded. -/
def widthPpm (spacing w : Nat) : Nat := (2 * 1000000 * w + spacing) / (2 * spacing)

/-- A height ratio: the distance over MARK_PITCH lies within 1 ± GEOM_TOL, exactly, by squares. -/
def heightOk (pitch tol dSq : Nat) : Bool :=
  ((10000 - tol) * pitch) * ((10000 - tol) * pitch) ≤ 100000000 * dSq &&
  100000000 * dSq ≤ ((10000 + tol) * pitch) * ((10000 + tol) * pitch)

/-- A height ratio in parts per million, rounded. -/
def heightPpm (pitch dSq : Nat) : Nat := roundSqrtDiv (1000000000000 * dSq) (pitch * pitch)

/-- The geometry result of four measured positions, left and right of row i then of row i + 1: OK, or FAIL with
the first failing ratio in the order of R61. -/
def geometryOf (p : LayoutParams) (tol : Nat) (l r l' r' : BedPos) : Geometry :=
  let lower := (r.x - l.x).natAbs
  let upper := (r'.x - l'.x).natAbs
  if !widthOk p.spacing tol lower then .fail .lowerWidth (widthPpm p.spacing lower)
  else if !widthOk p.spacing tol upper then .fail .upperWidth (widthPpm p.spacing upper)
  else if !heightOk p.markPitch tol (distSq l l') then .fail .leftHeight (heightPpm p.markPitch (distSq l l'))
  else if !heightOk p.markPitch tol (distSq r r') then .fail .rightHeight (heightPpm p.markPitch (distSq r r'))
  else .ok

/-- The geometry result of band `i` from the marks as they stand; UNCHECKED when a mark holds no position. -/
def MarkUnit.checkBand (mu : MarkUnit) (p : LayoutParams) (i : Nat) : Geometry := match mu.bandMarks i with
  | some (⟨_, some l, _, _⟩, ⟨_, some r, _, _⟩, ⟨_, some l', _, _⟩, ⟨_, some r', _, _⟩) =>
    geometryOf p mu.geomTol l.pos r.pos l'.pos r'.pos
  | _ => .unchecked

/-- The geometry check of every band of the span (R61). -/
def MarkUnit.checkSpan (mu : MarkUnit) (p : LayoutParams) : MarkUnit := match mu.span with
  | some sp =>
    { mu with bands := mu.bands.mapIdx fun i g => if sp.first ≤ i && i < sp.last then mu.checkBand p i else g }
  | none => mu

/-- Every band of the span is usable (R51, R59). -/
def MarkUnit.spanUsable (mu : MarkUnit) : Bool := match mu.span with
  | some sp => (List.range (sp.last - sp.first)).all fun d => mu.usable (sp.first + d)
  | none => true

/-- The lowest failing band of the span with its ratio and value (R61). -/
def MarkUnit.firstFailure (mu : MarkUnit) : Option (Nat × RatioKind × Nat) := match mu.span with
  | some sp =>
    (List.range (sp.last - sp.first)).findSome? fun d => match mu.bands[sp.first + d]? with
      | some (.fail k ppm) => some (sp.first + d, k, ppm)
      | _ => none
  | none => none

end Sys2Proof.Machine
end

