-- ==== Sys2Proof/Machine/Flags.lean ====
section
/-! DEFINITION. The conditions the rules test (line levels, executing entry, pending suspension) and the flags of the
reply digest (R163). -/

namespace Sys2Proof.Machine

/-! ### Input lines (R131) -/

/-- The taken level of a line. -/
def State.level (s : State) (i : Fin 8) : Bool := (s.bed.lines.get i).taken

/-- ESTOP asserted (line 0). -/
def State.estopOn (s : State) : Bool := s.level 0
/-- GUARD open (line 1). -/
def State.guardOpen (s : State) : Bool := s.level 1
/-- VAC_OK high (line 2). -/
def State.vacOk (s : State) : Bool := s.level 2
/-- MEDIA_END asserted (line 3). -/
def State.mediaEnd (s : State) : Bool := s.level 3
/-- KEY on (line 4). -/
def State.keyOn (s : State) : Bool := s.level 4
/-- HOME_X made (line 6). -/
def State.homeX (s : State) : Bool := s.level 6
/-- HOME_Y made (line 7). -/
def State.homeY (s : State) : Bool := s.level 7

/-- The taken levels of the eight lines, bit n for line n (R134, R164). -/
def State.levels (s : State) : Nat :=
  bitAt 0 (s.level 0) + bitAt 1 (s.level 1) + bitAt 2 (s.level 2) + bitAt 3 (s.level 3) +
  bitAt 4 (s.level 4) + bitAt 5 (s.level 5) + bitAt 6 (s.level 6) + bitAt 7 (s.level 7)

/-! ### The motion queue (R117 to R119) -/

/-- The kind of an entry (R118). -/
def Entry.kind : Entry → EntryKind
  | .travel _ _ => .travel
  | .cut _ _ _ => .cut
  | .search _ => .search
  | .home => .home
  | .feed _ => .feed

/-- The producer of an entry (R118). -/
def Entry.producer : Entry → Producer
  | .travel p _ => p
  | .cut _ _ (some _) => .planner
  | .cut _ _ none => .cycle
  | .search _ => .mark
  | .home => .cycle
  | .feed _ => .cycle

/-- The executing entry (R117). -/
def MotionUnit.executingEntry (m : MotionUnit) : Option Entry := if m.executing then m.queue.head? else none

/-- The motion unit is executing an entry (R117). -/
def State.busy (s : State) : Bool := s.motion.executing

/-- The free places of the motion queue (R119). -/
def MotionUnit.freePlaces (m : MotionUnit) : Nat := Config.motionPlaces - m.queue.length

/-- An entry of the planner stands in the motion queue (R83, R103). -/
def State.plannerQueued (s : State) : Bool := s.motion.queue.any fun e => e.producer = .planner

/-- The entry is one of the run: the planner's, the mark unit's, or a FEED while a run is active (R111). -/
def Entry.ofRun (e : Entry) : Bool := e.producer = .planner || e.producer = .mark || e.kind = .feed

/-- An entry of the run is executing (R111). -/
def State.runEntryExecuting (s : State) : Bool := match s.motion.executingEntry with
  | some e => e.ofRun
  | none => false

/-- The executing entry is a FEED (R128). -/
def State.feedExecuting (s : State) : Bool := match s.motion.executingEntry with
  | some (.feed _) => true
  | _ => false

/-- The executing entry is a HOME (R125). -/
def State.homeExecuting (s : State) : Bool := match s.motion.executingEntry with
  | some .home => true
  | _ => false

/-! ### The cycle -/

/-- A suspension is pending (R92). -/
def State.suspendPending (s : State) : Bool := s.cycle.reasons.any

/-- The readying phase of MEASURING (R91, R118). -/
def State.inReadying (s : State) : Bool := s.cycle.state = .measuring && s.cycle.phase = .readying

/-- HELD with this reason. -/
def State.heldFor (s : State) (r : HoldReason) : Bool := s.cycle.state = .held && s.cycle.hold = some r

/-- A nest run is in flight (R28). -/
def State.nestRunning (s : State) : Bool := s.nest.run.isSome

/-- An outline is open (R10). -/
def State.outlineOpen (s : State) : Bool := s.store.loader.isSome

/-! ### Codes (10-1) and the digest (R163) -/

/-- The code of a cycle state. -/
def CycleState.code : CycleState → Nat
  | .idle => 0 | .homing => 1 | .measuring => 2 | .cutting => 3 | .feeding => 4
  | .suspended => 5 | .held => 6 | .halted => 7 | .testcut => 8

/-- The second byte of the digest (R163). -/
def State.digestFlags (s : State) : Nat :=
  bitAt 0 s.cycle.fault.isSome + bitAt 1 s.outlineOpen + bitAt 2 s.nestRunning + bitAt 3 s.motion.homed +
  bitAt 4 s.link.dropped + bitAt 5 s.suspendPending

/-- The two-byte digest of the reply, read when the reply is queued (R163). -/
def State.digest (s : State) : List Byte := [u8 s.cycle.state.code, u8 s.digestFlags]

end Sys2Proof.Machine
end

