-- ==== Sys2Proof/Machine/Operands.lean ====
section
/-! DEFINITION. What the operand bytes of requests stand for (10-1, R1, R13, R40, R106, R166, R168); `none` is a
value outside those given, which the owning unit answers BAD_ARG. -/

namespace Sys2Proof.Machine

/-- A slot number; above 95 there is none (R1). -/
def slotOf (b : Byte) : Option Slot := if h : b.toNat < 96 then some ⟨b.toNat, h⟩ else none

/-- A tool byte: KISS 0, THRU 1. -/
def toolOf (b : Byte) : Option Tool := if b = 0 then some .kiss else if b = 1 then some .thru else none

/-- A side byte: LEFT 0, RIGHT 1. -/
def sideOf (b : Byte) : Option Side := if b = 0 then some .left else if b = 1 then some .right else none

/-- A rotation byte of PLACE: 0 or 90 (R162). -/
def rotationOf (b : Byte) : Option Rotation := if b = 0 then some .r0 else if b = 90 then some .r90 else none

/-- An off or on byte. -/
def onOffOf (b : Byte) : Option Bool := if b = 0 then some false else if b = 1 then some true else none

/-- The panel flags: bit 0 weed, bit 1 rotate_ok, another bit set is out of range (10-1). -/
def panelFlagsOf (b : Byte) : Option (Bool × Bool) :=
  if b.toNat < 4 then some (b.getLsbD 0, b.getLsbD 1) else none

/-- The settings of a panel that OPEN_OUTLINE and SET_PANEL carry (R6, R11). -/
structure Settings where
  label : List Byte
  tool : Tool
  weed : Bool
  rotateOk : Bool
  order : Nat
  passes : Nat
  bleed : Nat
  deriving DecidableEq, Repr

/-- A label: at most 12 characters from 0x20 to 0x7E (R1). -/
def labelOk (label : List Byte) : Bool :=
  label.length ≤ 12 && label.all fun c => 0x20 ≤ c.toNat && c.toNat ≤ 0x7E

/-- The settings, when every one is in the range of R1. -/
def settingsOf (bleed : Half) (tool flags order passes : Byte) (label : List Byte) : Option Settings :=
  match toolOf tool, panelFlagsOf flags with
  | some t, some (weed, rotateOk) =>
    if bleed.toNat ≤ 5000 ∧ passes.toNat ≤ 4 ∧ labelOk label then
      some ⟨label, t, weed, rotateOk, order.toNat, passes.toNat, bleed.toNat⟩
    else none
  | _, _ => none

/-- A breakpoint's kind and argument (R106). OFF and ITEM have no argument, and its byte is not read with them
(log 36). -/
def breakKindOf (kind argument : Byte) : Option BreakKind :=
  match kind.toNat with
  | 0 => some .off
  | 1 => if argument.toNat ≤ 95 then some (.panelStart argument.toNat) else none
  | 2 => if argument.toNat ≤ 99 then some (.windowStart argument.toNat) else none
  | 3 => some .item
  | 4 => if argument.toNat ≤ 98 then some (.band argument.toNat) else none
  | _ => none

/-- A breakpoint's action: HALT 0, NOTIFY 1 (10-1). -/
def breakActionOf (b : Byte) : Option BreakAction :=
  if b = 0 then some .halt else if b = 1 then some .notify else none

/-- The watch items (R168). -/
def watchItemOf (b : Byte) : Option WatchItem :=
  match b.toNat with
  | 0 => some .off
  | 1 => some .position
  | 2 => some .cycle
  | 3 => some .queues
  | 4 => some .panel
  | _ => none

/-- The tables (R166). -/
def tableOf (b : Byte) : Option TableName :=
  match b.toNat with
  | 0 => some .panels
  | 1 => some .marks
  | 2 => some .bands
  | 3 => some .items
  | 4 => some .skyline
  | 5 => some .inputs
  | 6 => some .breakpoints
  | 7 => some .fault
  | _ => none

/-- A bed position of JOG, TEST_CUT or MARK_SET: two four-byte counts (R162). A value with its top bit set lies
outside the bed travel whether read with a sign or without. -/
def bedPosOf (x y : Word) : BedPos := ⟨x.toNat, y.toNat⟩

end Sys2Proof.Machine
end

