-- ==== Sys2Proof/Machine/Records.lean ====
section
/-! DEFINITION. The codes and byte layouts of chapter 10: statuses, record layouts (R170, R171), notices (R164). -/

namespace Sys2Proof.Machine

/-- The statuses of a reply (R163). -/
inductive Status where
  | ok | accepted | noChange | unknownKind | badLength | badArg | refusedState | busy | nestBusy | outlineOpen
  | noSpace | locked | sequence | overlap | windowPassed | notHomed | guardOpen | stillActive | faultLatched
  | notFound | doesNotFit
  deriving DecidableEq, Repr

/-- The code of a status (R163). -/
def Status.code : Status → Byte
  | .ok => 0x00 | .accepted => 0x01 | .noChange => 0x02
  | .unknownKind => 0x10 | .badLength => 0x11 | .badArg => 0x12
  | .refusedState => 0x20 | .busy => 0x21 | .nestBusy => 0x22 | .outlineOpen => 0x23
  | .noSpace => 0x24 | .locked => 0x25 | .sequence => 0x26 | .overlap => 0x27
  | .windowPassed => 0x28 | .notHomed => 0x29 | .guardOpen => 0x2A | .stillActive => 0x2B
  | .faultLatched => 0x2C | .notFound => 0x2D | .doesNotFit => 0x2E

/-! ### Codes (10-1) -/

/-- Hold reason, none 0. -/
def holdCode : Option HoldReason → Nat
  | none => 0
  | some .markMissed => 1 | some .markGeometry => 2 | some .seamDeviation => 3 | some .planFull => 4
  | some .recover => 5

/-- Panel state. -/
def PanelState.code : PanelState → Nat
  | .empty => 0 | .loading => 1 | .loaded => 2 | .placed => 3 | .cutting => 4 | .cut => 5 | .skipped => 6

/-- Lock. -/
def Lock.code : Lock → Nat
  | .free => 0 | .pinned => 1 | .committed => 2

/-- nest_outcome. -/
def NestOutcome.code : NestOutcome → Nat
  | .none => 0 | .placed => 1 | .unfit => 2 | .noRoom => 3 | .fixed => 4

/-- Tool. -/
def Tool.code : Tool → Nat
  | .kiss => 0 | .thru => 1

/-- Mark state. -/
def MarkState.code : MarkState → Nat
  | .unread => 0 | .read => 1 | .missed => 2 | .set => 3

/-- Side. -/
def Side.code : Side → Nat
  | .left => 0 | .right => 1

/-- Item state. -/
def ItemState.code : ItemState → Nat
  | .pending => 0 | .active => 1 | .done => 2 | .skipped => 3

/-- Item kind. -/
def ItemKind.code : ItemKind → Nat
  | .weed => 0 | .outline => 1

/-- Entry kind. -/
def EntryKind.code : EntryKind → Nat
  | .travel => 0 | .cut => 1 | .search => 2 | .home => 3 | .feed => 4

/-- Fault kind; 0 is none. -/
def FaultKind.code : FaultKind → Nat
  | .estop => 1 | .guard => 2 | .vacuumLost => 3 | .mediaSlip => 4 | .mediaEnd => 5 | .motionLimit => 6
  | .homeFail => 7 | .linkClear => 8

/-- Ratio kind. -/
def RatioKind.code : RatioKind → Nat
  | .lowerWidth => 0 | .upperWidth => 1 | .leftHeight => 2 | .rightHeight => 3

/-- Resume point (R169). -/
def ResumePoint.code : ResumePoint → Nat
  | .settle => 0 | .continue => 1 | .feed => 2

/-- Rotation in degrees (R170). -/
def Rotation.code : Rotation → Nat
  | .r0 => 0 | .r90 => 90

/-- The reasons bits: bit 0 REQUEST, bit 1 STEP, bit 2 BREAK (R164). -/
def Reasons.code (r : Reasons) : Nat := bitAt 0 r.request + bitAt 1 r.step + bitAt 2 r.brk

/-- Filter setting (R165). -/
def Filter.code : Filter → Nat
  | .none => 0 | .f2 => 1 | .f8 => 2 | .f32 => 3

/-- VAC_SAFE (R165). -/
def VacSafe.code : VacSafe → Nat
  | .hold => 0 | .release => 1

/-- A breakpoint entry of READ_TABLE: kind, argument, action, 0 (R166). -/
def Breakpoint.bytes (b : Breakpoint) : List Byte :=
  (match b.kind with
    | .off => [0, 0]
    | .panelStart slot => [1, u8 slot]
    | .windowStart w => [2, u8 w]
    | .item => [3, 0]
    | .band i => [4, u8 i]) ++
  [u8 (match b.action with | .halt => 0 | .notify => 1), 0]

/-! ### Records (R170, R171) -/

/-- A list of bytes filled with zeros to `n`. -/
def padTo (n : Nat) (l : List Byte) : List Byte := l ++ List.replicate (n - l.length) 0

/-- The panel entry, 54 bytes (R170). -/
def panelEntry (slot : Nat) (p : Panel) : List Byte :=
  [u8 slot, u8 p.state.code, u8 p.lock.code,
    u8 (bitAt 0 p.bbox.isSome + bitAt 1 p.placement.isSome + bitAt 2 p.windowsLeft.isSome + bitAt 3 p.weed +
      bitAt 4 p.rotateOk),
    u8 p.tool.code, u8 p.order, u8 p.passes, u8 p.outcome.code] ++
  be16 p.bleed ++ be16 p.vertexCount ++
  (match p.bbox with
    | some b => be32 b.minU ++ be32 b.minV ++ be32 b.width ++ be32 b.height
    | none => List.replicate 16 0) ++
  (match p.placement with
    | some pl => be32 pl.x ++ be32 pl.y ++ [u8 pl.rotation.code]
    | none => List.replicate 9 0) ++
  [u8 (p.windowsLeft.getD 0)] ++ be16 p.chain.length ++ [u8 p.label.length, 0] ++ padTo 12 p.label

/-- A position and its presence, signed (R170). -/
def measuredBytes : Option Measured → List Byte
  | some m => be32i m.pos.x ++ be32i m.pos.y
  | none => List.replicate 8 0

/-- The mark entry, 32 bytes (R170). -/
def markEntry (p : LayoutParams) (row : Nat) (side : Side) (m : Mark) : List Byte :=
  [u8 row, u8 side.code, u8 m.state.code, u8 (bitAt 0 m.measured.isSome + bitAt 1 m.previous.isSome),
    u8 m.attempts, u8 ((m.measured.map (·.window)).getD 0), u8 ((m.previous.map (·.window)).getD 0), 0] ++
  be32 (p.sideU side) ++ be32 (p.rowV row) ++ measuredBytes m.measured ++ measuredBytes m.previous

/-- A media point, zeros when absent. -/
def vertexField : Option Vertex → List Byte
  | some w => be32 w.u ++ be32 w.v
  | none => List.replicate 8 0

/-- The item entry, 34 bytes (R170). -/
def itemEntry (index : Nat) (it : Item) : List Byte :=
  be16 index ++
  [u8 it.slot.val, u8 it.kind.code, u8 it.tool.code, u8 it.state.code, u8 it.passes, u8 it.passDone] ++
  be16 it.segDone ++ be16 it.segments ++ be16 it.first ++ be16 it.last ++ vertexField it.entry ++
  vertexField it.exit ++ [u8 (bitAt 0 it.entry.isSome + bitAt 1 it.exit.isSome), 0]

/-- The qualifier byte of the fault record (R170). -/
def StateQualifier.code : StateQualifier → Nat
  | .none => 0
  | .hold r => holdCode (some r)
  | .resume p => p.code
  | .testReturn st => st.code

/-- The detail code of the fault record (R170; 0x80 stands for MOTION_LIMIT alone, log 18). -/
def FaultDetail.code : FaultDetail → Nat
  | .none => 0
  | .guard e => e.code
  | .vacuum atSettle => bitAt 0 atSettle
  | .slip tolerance _ _ => bitAt 0 tolerance
  | .mediaEnd during _ _ => bitAt 0 during
  | .limit e _ homedClear => e.code + bitAt 7 homedClear
  | .axis .x => 0
  | .axis .y => 1

/-- Details a and b of the fault record (R170). -/
def FaultDetail.ab : FaultDetail → Int × Int
  | .slip _ c e => (c, e)
  | .mediaEnd _ c e => (c, e)
  | .limit _ t _ => (t.x, t.y)
  | .none => (0, 0)
  | .guard _ => (0, 0)
  | .vacuum _ => (0, 0)
  | .axis _ => (0, 0)

/-- A head position, zeros when absent (R170, R171). -/
def headBytes : Option BedPos → List Byte
  | some h => be32i h.x ++ be32i h.y
  | none => List.replicate 8 0

/-- The fault record, 28 bytes (R170). -/
def faultEntryBytes (r : FaultRecord) : List Byte :=
  [u8 r.kind.code, u8 r.stateAtEntry.code, u8 r.qualifier.code, u8 r.detail.code, u8 r.window, u8 r.followOn,
    u8 ((r.lastFollowOn.map FaultKind.code).getD 0), u8 (bitAt 0 r.itemSlot.isSome + bitAt 1 r.head.isSome)] ++
  be16 ((r.itemSlot.map (·.1)).getD 0) ++ [u8 ((r.itemSlot.map (·.2.val)).getD 0), 0] ++ headBytes r.head ++
  be32i r.detail.ab.1 ++ be32i r.detail.ab.2

/-- The band entry, 12 bytes (R171). -/
def bandEntry (mu : MarkUnit) (i : Nat) (g : Geometry) : List Byte :=
  (match g with
    | .unchecked => [u8 i, 0, 0]
    | .ok => [u8 i, 1, 0]
    | .fail k _ => [u8 i, 2, u8 k.code]) ++
  [u8 (bitAt 0 (mu.usable i))] ++
  (match mu.bandMarks i with
    | some (a, b, c, d) => [u8 a.state.code, u8 b.state.code, u8 c.state.code, u8 d.state.code]
    | none => [0, 0, 0, 0]) ++
  (match g with
    | .fail _ ppm => be32 ppm
    | .unchecked => be32 0
    | .ok => be32 0)

/-- A segment of the skyline, 12 bytes (R166). -/
def segEntry (g : Seg) : List Byte := be32 g.x ++ be32 g.width ++ be32 g.height

/-- The eight enables of one edge, bit n for line n. -/
def lineBits (b : BedIO) (f : Line → Bool) : Nat :=
  bitAt 0 (f (b.lines.get 0)) + bitAt 1 (f (b.lines.get 1)) + bitAt 2 (f (b.lines.get 2)) +
  bitAt 3 (f (b.lines.get 3)) + bitAt 4 (f (b.lines.get 4)) + bitAt 5 (f (b.lines.get 5)) +
  bitAt 6 (f (b.lines.get 6)) + bitAt 7 (f (b.lines.get 7))

/-- The INPUTS entry, 32 bytes: levels, filters, rise and fall enables, change set, zeros (R166). Bit n stands for line n
and the seven filters are those of lines 1 to 7 (log 34). -/
def inputsEntry (b : BedIO) : List Byte :=
  padTo 32 ([u8 (lineBits b (·.taken)),
    u8 (b.lines.get 1).filter.code, u8 (b.lines.get 2).filter.code, u8 (b.lines.get 3).filter.code,
    u8 (b.lines.get 4).filter.code, u8 (b.lines.get 5).filter.code, u8 (b.lines.get 6).filter.code,
    u8 (b.lines.get 7).filter.code,
    u8 (lineBits b (·.riseEn)), u8 (lineBits b (·.fallEn)),
    u8 (lineBits b (·.riseChange)), u8 (lineBits b (·.fallChange))])

/-! ### The cursor item (R74) and the summaries (R168, R169, R171) -/

/-- The item is PENDING or ACTIVE. -/
def Item.live (it : Item) : Bool := it.state = .pending || it.state = .active

/-- The index of the first live item at or after `i`, counting `list` from `i`. -/
def firstLiveFrom : Nat → List Item → Option Nat
  | _, [] => none
  | i, it :: l => if it.live then some i else firstLiveFrom (i + 1) l

/-- The cursor item's index (R74). -/
def Worklist.cursorIndex (w : Worklist) : Option Nat := firstLiveFrom 0 w.items

/-- The cursor item's index and slot (R74, R146). -/
def Worklist.cursorItem (w : Worklist) : Option (Nat × Slot) := match w.cursorIndex with
  | some i => (w.items[i]?).map fun it => (i, it.slot)
  | none => none

/-- The cursor item when a worklist with one exists. -/
def State.cursorItem (s : State) : Option (Nat × Slot) := match s.plan.worklist with
  | some w => w.cursorItem
  | none => none

/-- The number of items of the worklist, 0 with none. -/
def State.itemCount (s : State) : Nat := match s.plan.worklist with
  | some w => w.items.length
  | none => 0

/-- The phase byte: settle 0, readying 1, 0 outside MEASURING (R171). -/
def State.phaseCode (s : State) : Nat := if s.inReadying then 1 else 0

/-- The tool states byte (R171). -/
def MotionUnit.toolBits (m : MotionUnit) : Nat := bitAt 0 (m.kiss = .lowered) + bitAt 1 (m.thru = .lowered)

/-- The outputs byte of STATUS (R171). -/
def BedIO.outputBits (b : BedIO) : Nat :=
  bitAt 0 (b.zones.get 0) + bitAt 1 (b.zones.get 1) + bitAt 2 (b.zones.get 2) + bitAt 3 (b.zones.get 3) +
  bitAt 4 b.feedDrive + bitAt 5 b.beacon

/-- The STATUS data, 42 bytes (R171). -/
def statusData (s : State) : List Byte :=
  [u8 s.cycle.state.code, u8 s.phaseCode, u8 (holdCode s.cycle.hold), u8 s.cycle.reasons.code,
    u8 ((s.cycle.taken.map (·.reasons.code)).getD 0), u8 ((s.cycle.taken.map (·.resume.code)).getD 0),
    u8 (bitAt 0 s.cycle.stopPending + bitAt 1 s.cycle.runActive + bitAt 2 s.motion.head.isSome),
    u8 s.cycle.pointer, u8 s.windowCount, u8 s.cycle.owed] ++
  be32i s.cycle.remainder ++
  [u8 s.motion.queue.length, match s.motion.executingEntry with | some e => u8 e.kind.code | none => 0xFF] ++
  headBytes s.motion.head ++ [u8 s.motion.toolBits, u8 s.bed.outputBits] ++
  be16 (s.bed.toolKiss.getD 0) ++ be16 (s.bed.toolThru.getD 0) ++ be32i s.motion.encoder ++
  [u8 s.link.inbound.length, u8 s.link.outbound.length, u8 s.link.overrun, u8 (bitAt 0 s.nestRunning)] ++
  be16 s.store.free.length ++ [u8 s.rowCount, 0]

/-- The capability record of IDENT, 66 bytes (R169, R171, 0-3.2). -/
def identData (s : State) : List Byte :=
  be16 0x4D4B ++ be16 0x0096 ++ [1, 0] ++ be16 96 ++ be16 Config.blocks ++ be16 Config.blockPlaces ++
  be16 3 ++ be16 4096 ++ be16 Config.maxRows ++ be16 99 ++ be16 194 ++ be16 Config.maxItems ++
  be16 Config.motionPlaces ++ be16 Config.inboundPlaces ++ be16 Config.outboundPlaces ++ be16 4 ++
  be16 4 ++ be16 244 ++ be16 1 ++ be16 28 ++ be16 12 ++ be16 4 ++ be32 Config.zoneLength ++
  be32 Config.bedX ++ be32 Config.bedY ++ be32 Config.edgeX ++ be32 Config.originY ++ be16 s.store.free.length

/-- The item byte of a watch (R168). -/
def WatchItem.code : WatchItem → Nat
  | .off => 0 | .position => 1 | .cycle => 2 | .queues => 3 | .panel => 4

/-- The contents of a WATCH notice after its item byte (R171). -/
def watchContents (s : State) : List Byte := match s.link.watch.item with
  | .off => []
  | .position =>
    [u8 (bitAt 0 s.motion.homed + bitAt 1 s.motion.head.isSome), u8 s.motion.toolBits] ++ headBytes s.motion.head
  | .cycle =>
    [u8 s.cycle.state.code, u8 s.phaseCode, u8 (holdCode s.cycle.hold), u8 s.cycle.pointer, u8 s.windowCount,
      u8 (bitAt 0 s.cursorItem.isSome)] ++ be16 ((s.cursorItem.map (·.1)).getD 0)
  | .queues =>
    [u8 s.link.inbound.length, u8 s.link.outbound.length, u8 s.motion.queue.length, 0] ++
      be16 s.itemCount ++ be16 s.store.free.length
  | .panel => match slotOf s.link.watch.slot with
    | some i => panelEntry i.val (s.store.panels.get i)
    | none => []

/-! ### Notices (R164), each with TAG 0 -/

/-- A notice record. -/
def noticeRecord (kind : Byte) (payload : List Byte) : OutRecord := ⟨kind, 0, padTo 2 payload, none⟩

/-- LINK_CLEARED. -/
def linkClearedNotice : OutRecord := noticeRecord 0x61 []
/-- LINK_ERROR: kind code, overrun count or 0, KIND and TAG when both body bytes arrived, else 0 (R155, R164). -/
def linkErrorNotice (kindCode count : Nat) (body : List Byte) : OutRecord :=
  noticeRecord 0x62 ([u8 kindCode, u8 count] ++ match body with
    | k :: t :: _ => [k, t]
    | _ => [0, 0])
/-- NEST_DONE. -/
def nestDoneNotice (aborted : Bool) (placed unfit noRoom layoutEnd : Nat) : OutRecord :=
  noticeRecord 0x63 ([u8 (bitAt 0 aborted), u8 placed, u8 unfit, u8 noRoom] ++ be32 layoutEnd)
/-- CYCLE(window start). -/
def windowStartNotice (window items : Nat) : OutRecord := noticeRecord 0x64 ([0, u8 window] ++ be16 items)
/-- CYCLE(window done); it carries no item count, which is sent as zero (log 9). -/
def windowDoneNotice (window : Nat) : OutRecord := noticeRecord 0x64 ([1, u8 window] ++ be16 0)
/-- CYCLE(run done). -/
def runDoneNotice (window : Nat) : OutRecord := noticeRecord 0x64 ([2, u8 window] ++ be16 0)
/-- PANEL_DONE. -/
def panelDoneNotice (slot : Slot) (window : Nat) : OutRecord := noticeRecord 0x65 [u8 slot.val, u8 window]
/-- SUSPENDED. -/
def suspendedNotice (t : Taken) (window : Nat) (cursor : Option (Nat × Slot)) : OutRecord :=
  noticeRecord 0x66 ([u8 t.reasons.code, u8 t.halts.toNat, u8 window, u8 (bitAt 0 cursor.isSome)] ++
    be16 ((cursor.map (·.1)).getD 0) ++ [u8 ((cursor.map (·.2.val)).getD 0)])
/-- HELD: reason, window, detail in 10 bytes. -/
def heldNotice (reason : HoldReason) (window : Nat) (detail : List Byte) : OutRecord :=
  noticeRecord 0x67 ([u8 (holdCode (some reason)), u8 window] ++ padTo 10 detail)
/-- FAULT: the fault record. -/
def faultNotice (r : FaultRecord) : OutRecord := noticeRecord 0x68 (faultEntryBytes r)
/-- INPUT: line, edge (RISE 0, FALL 1), new level, the eight levels. -/
def inputNotice (line : Fin 8) (level : Bool) (levels : Nat) : OutRecord :=
  noticeRecord 0x69 [u8 line.val, u8 (bitAt 0 (!level)), u8 (bitAt 0 level), u8 levels]
/-- WATCH: item, then its content. -/
def watchNotice (s : State) : OutRecord :=
  noticeRecord 0x6A (u8 s.link.watch.item.code :: watchContents s)
/-- BREAK: NOTIFY breakpoints, window, item index, slot. -/
def breakNotice (notify : BitVec 4) (window item : Nat) (slot : Slot) : OutRecord :=
  noticeRecord 0x6B ([u8 notify.toNat, u8 window] ++ be16 item ++ [u8 slot.val])

end Sys2Proof.Machine
end

