-- ==== Sys2Proof/Machine/Ops.lean ====
section
/-! DEFINITION. The operations the units share: unit updates, notices and replies, the contour store, the motion
queue and the tools, the outputs, changes of cycle state, withdrawal, suspension, holds, and the entry of a fault. -/

namespace Sys2Proof.Machine

/-! ### Unit updates -/

/-- The state with another link port. -/
def State.withLink (s : State) (l : LinkPort) : State := { s with link := l }
/-- The state with another panel store. -/
def State.withStore (s : State) (p : PanelStore) : State := { s with store := p }
/-- The state with another nest unit. -/
def State.withNest (s : State) (n : NestUnit) : State := { s with nest := n }
/-- The state with another mark unit. -/
def State.withMarks (s : State) (m : MarkUnit) : State := { s with marks := m }
/-- The state with another planner. -/
def State.withPlan (s : State) (p : Planner) : State := { s with plan := p }
/-- The state with another cycle controller. -/
def State.withCycle (s : State) (c : CycleControl) : State := { s with cycle := c }
/-- The state with another motion unit. -/
def State.withMotion (s : State) (m : MotionUnit) : State := { s with motion := m }
/-- The state with another bed I/O unit. -/
def State.withBed (s : State) (b : BedIO) : State := { s with bed := b }

/-! ### Notices and replies (R157, R158, R163) -/

/-- A notice is formed: it stands behind the reply of the event's request (R157 step 5, log 6). -/
def State.emit (n : OutRecord) (s : State) : State := s.withLink { s.link with formed := s.link.formed ++ [n] }

/-- Queues a notice when at least 2 places would remain free after it, else drops it (R158). -/
def LinkPort.queueNotice (l : LinkPort) (n : OutRecord) : LinkPort :=
  if l.outbound.length + 3 ≤ Config.outboundPlaces then { l with outbound := l.outbound ++ [n] }
  else { l with dropped := true }

/-- Queues a WATCH notice when at least 4 places would remain free after it, else drops it (R158). -/
def LinkPort.queueWatch (l : LinkPort) (n : OutRecord) : LinkPort :=
  if l.outbound.length + 5 ≤ Config.outboundPlaces then { l with outbound := l.outbound ++ [n] }
  else { l with dropped := true }

/-- Queues the notices formed in this event, in order (R157, R158). -/
def State.flush (s : State) : State :=
  s.withLink (s.link.formed.foldl LinkPort.queueNotice { s.link with formed := [] })

/-- The reply of a request (R154, R163): KIND is the request's with its high bit set, TAG the request's; the payload
is the status, the digest and the data. -/
def replyRecord (kind tag : Byte) (status : Status) (data : List Byte) (rate : Option (Fin 4)) (s : State) :
    OutRecord :=
  ⟨kind ||| 0x80, tag, status.code :: s.digest ++ data, rate⟩

/-- Queues a reply; its place has been kept for it (R157), and NOTICES_DROPPED is cleared by it (R158). -/
def State.queueReply (kind tag : Byte) (status : Status) (data : List Byte) (rate : Option (Fin 4)) (s : State) :
    State :=
  s.withLink { s.link with
    outbound := s.link.outbound ++ [replyRecord kind tag status data rate s]
    dropped := false }

/-- What a unit makes of a delivered request: the state it leaves and its answer. -/
structure Acted where
  st : State
  status : Status
  data : List Byte
  rate : Option (Fin 4)
  deriving DecidableEq, Repr

/-- A refusal, or any answer that leaves the state as it is and carries no data (R163). -/
def State.answer (s : State) (status : Status) : Acted := ⟨s, status, [], none⟩

/-- The request was taken and the state is now `s`. -/
def State.done (s : State) : Acted := ⟨s, .ok, [], none⟩

/-- The request was taken; the reply carries data. -/
def State.doneWith (s : State) (data : List Byte) : Acted := ⟨s, .ok, data, none⟩

/-- The owning unit acts, and its reply is queued at once (R157 step 5). -/
def serve (kind tag : Byte) (act : State → Acted) (s : State) : State :=
  let a := act s
  a.st.queueReply kind tag a.status a.data a.rate

/-! ### The contour store (R8, R9) -/

/-- What a place reads as that no stream has written (log 5). -/
def Contour.blank : Vertex := ⟨0, 0⟩

/-- The vertex at a place. -/
def Contour.read : List (Nat × Vertex) → Nat → Vertex
  | [], _ => Contour.blank
  | (k, w) :: l, a => if k = a then w else Contour.read l a

/-- The store with a place unlisted. -/
def Contour.erase (a : Nat) (c : List (Nat × Vertex)) : List (Nat × Vertex) := c.filter fun q => q.1 ≠ a

/-- The store with a place listed, in rising order. -/
def Contour.put (a : Nat) (w : Vertex) : List (Nat × Vertex) → List (Nat × Vertex)
  | [] => [(a, w)]
  | (k, x) :: l =>
    if a < k then (a, w) :: (k, x) :: l
    else if a = k then (a, w) :: l
    else (k, x) :: Contour.put a w l

/-- The store with a vertex written at a place, in its canonical form. -/
def Contour.write (a : Nat) (w : Vertex) (c : List (Nat × Vertex)) : List (Nat × Vertex) :=
  if w = Contour.blank then Contour.erase a c else Contour.put a w c

/-- The canonical form: places strictly rising, and none listed that reads as an unlisted one. -/
def Contour.wf : List (Nat × Vertex) → Bool
  | [] => true
  | [(_, w)] => w ≠ Contour.blank
  | (k, w) :: (k', w') :: l => w ≠ Contour.blank && k < k' && Contour.wf ((k', w') :: l)

/-- The place of vertex `i` of an outline held in a chain of blocks (R9). -/
def placeOf (chain : List Nat) (i : Nat) : Nat :=
  chain.getD (i / Config.blockPlaces) 0 * Config.blockPlaces + i % Config.blockPlaces

/-- Vertex `i` of the outline held in a chain (R9). -/
def PanelStore.vertex (st : PanelStore) (chain : List Nat) (i : Nat) : Vertex :=
  Contour.read st.contour (placeOf chain i)

/-- Vertices 0 to n − 1 of the outline held in a chain (R9). -/
def PanelStore.vertices (st : PanelStore) (chain : List Nat) (n : Nat) : List Vertex :=
  (List.range n).map (st.vertex chain)

/-- The panel table with one record replaced. -/
def PanelStore.setPanel (st : PanelStore) (i : Slot) (p : Panel) : PanelStore :=
  { st with panels := st.panels.set i p }

/-- A slot made EMPTY: the empty record, its chain returned to the tail of the free list in chain order (R2, R8). -/
def PanelStore.emptySlot (st : PanelStore) (i : Slot) : PanelStore :=
  { st with
    panels := st.panels.set i Panel.emptyRecord
    free := st.free ++ (st.panels.get i).chain }

/-- The open outline is abandoned: its slot made EMPTY and the loader closed (R15, R17, R20). -/
def PanelStore.abandon (st : PanelStore) (o : OpenOutline) : PanelStore :=
  { st.emptySlot o.slot with loader := none }

/-- A panel of the table. -/
def State.panel (s : State) (i : Slot) : Panel := s.store.panels.get i

/-- One panel replaced. -/
def State.setPanel (s : State) (i : Slot) (p : Panel) : State := s.withStore (s.store.setPanel i p)

/-! ### The motion queue (R119) and the outputs (R141) -/

/-- Places an entry at the tail; a full queue does not accept it (R119). -/
def State.place (e : Entry) (s : State) : State :=
  if s.motion.queue.length < Config.motionPlaces then
    s.withMotion { s.motion with queue := s.motion.queue ++ [e] }
  else s

/-- Removes the entries that `which` names and that are not executing, with no completion (R119). -/
def MotionUnit.remove (m : MotionUnit) (which : Entry → Bool) : MotionUnit :=
  if m.executing then
    match m.queue with
    | [] => m
    | e :: rest => { m with queue := e :: rest.filter fun x => !which x }
  else { m with queue := m.queue.filter fun x => !which x }

/-- Both tools raised, their lines off (R121, R141). -/
def State.raiseTools (s : State) : State :=
  (s.withMotion { s.motion with kiss := .raised, thru := .raised }).withBed
    { s.bed with toolKiss := none, toolThru := none }

/-- The pressure parameter of a tool (R121, R122). -/
def MotionParams.pressure (p : MotionParams) : Tool → Nat
  | .kiss => p.kissPressure
  | .thru => p.thruPressure

/-- The speed parameter of a tool (R122). -/
def MotionParams.toolSpeed (p : MotionParams) : Tool → Nat
  | .kiss => p.kissSpeed
  | .thru => p.thruSpeed

/-- The other tool raised and the named one lowered at its pressure as read now (R121, R122). -/
def State.lowerTool (t : Tool) (s : State) : State := match t with
  | .kiss =>
    (s.withMotion { s.motion with kiss := .lowered, thru := .raised }).withBed
      { s.bed with toolKiss := some s.motion.params.kissPressure, toolThru := none }
  | .thru =>
    (s.withMotion { s.motion with kiss := .raised, thru := .lowered }).withBed
      { s.bed with toolKiss := none, toolThru := some s.motion.params.thruPressure }

/-- Every zone released (R93, R127). -/
def State.releaseZones (s : State) : State := s.withBed { s.bed with zones := Table.fill 4 false }

/-- The zones of the window switched on, the others left as they stand (R93, R141). -/
def State.windowZonesOn (s : State) : State :=
  s.withBed { s.bed with zones := s.bed.zones.map fun z on => on || windowZone s.nest.params z }

/-- The safe values (R143). -/
def BedIO.safe (b : BedIO) : BedIO :=
  { b with
    toolKiss := none
    toolThru := none
    feedDrive := false
    beacon := true
    zones := b.zones.map fun z on => on && b.vacSafe.get z = .hold }

/-! ### The cycle state -/

/-- Goes to a cycle state. BEACON follows (R142); the hold reason stands only in HELD and the record taken only in
SUSPENDED (R92, R105); the settle timer stops outside MEASURING (R93). -/
def State.setCycle (st : CycleState) (s : State) : State :=
  (s.withCycle { s.cycle with
    state := st
    hold := if st = .held then s.cycle.hold else none
    taken := if st = .suspended then s.cycle.taken else none
    settleTimer := if st = .measuring then s.cycle.settleTimer else none }).withBed
      { s.bed with beacon := st = .held || st = .halted }

/-- Clears the pending part of the suspension record (R92). -/
def State.clearReasons (s : State) : State :=
  s.withCycle { s.cycle with reasons := Reasons.none, halts := 0 }

/-! ### The issue pointer and withdrawal (R83, R85, R119) -/

/-- The issue pointer at the start of the next segment of item `i`, a travel move due; at the end with none. -/
def issueAt (items : List Item) (target : Option Nat) : IssuePointer := match target with
  | none => ⟨none, 0, 0, false, false⟩
  | some i => match items[i]? with
    | some it => ⟨some i, it.passDone, it.segDone, true, false⟩
    | none => ⟨none, 0, 0, false, false⟩

/-- The issue pointer set to the cursor (R85). -/
def Worklist.rewind (w : Worklist) : Worklist := { w with issue := issueAt w.items w.cursorIndex }

/-- The worklist, when there is one, changed by `f`. -/
def State.mapWorklist (f : Worklist → Worklist) (s : State) : State :=
  s.withPlan { s.plan with worklist := s.plan.worklist.map f }

/-- The planner's entries not yet started are withdrawn and its issue pointer set to the cursor (R85). -/
def State.withdrawPlanner (s : State) : State :=
  (s.withMotion (s.motion.remove fun e => e.producer = .planner)).mapWorklist Worklist.rewind

/-! ### Suspensions and holds (R98, R105) -/

/-- Takes the pending suspension with a resume point: entries withdrawn, tools raised, SUSPENDED (R103, R105). -/
def State.takeSuspension (resume : ResumePoint) (s : State) : State :=
  let t : Taken := ⟨s.cycle.reasons, s.cycle.halts, resume⟩
  let s := (s.withdrawPlanner.raiseTools.clearReasons).setCycle .suspended
  (s.withCycle { s.cycle with taken := some t }).emit (suspendedNotice t s.cycle.pointer s.cursorItem)

/-- Enters HELD with a reason: pending reasons cleared, entries withdrawn (R65), HELD notice (R98). -/
def State.enterHeld (reason : HoldReason) (detail : List Byte) (s : State) : State :=
  let s := (s.withdrawPlanner.raiseTools.clearReasons).setCycle .held
  (s.withCycle { s.cycle with hold := some reason }).emit (heldNotice reason s.cycle.pointer detail)

/-- The window pointer advanced by `n`, no further than the window count (R71). When it changes, the worklist is
discarded (R74) and the span emptied (R52). -/
def State.advancePointer (n : Nat) (s : State) : State :=
  let next := if s.windowCount ≤ s.cycle.pointer then s.cycle.pointer else min (s.cycle.pointer + n) s.windowCount
  if next = s.cycle.pointer then s
  else
    ((s.withCycle { s.cycle with pointer := next }).withPlan { s.plan with worklist := none }).withMarks
      { s.marks with span := none }

/-- The remainder and the windows owed return to 0, and no feed is in hand (R92, R95, R115). -/
def State.clearOwed (s : State) : State :=
  s.withCycle { s.cycle with remainder := 0, owed := 0, feedJob := none }

/-- The current window is invalidated (R63). -/
def State.invalidate (s : State) : State := s.withMarks (s.marks.invalidate s.currentRows)

/-- The job of a FEED that stands in the motion queue; none without one. -/
def State.queuedFeedJob (s : State) : Option FeedJob :=
  if s.motion.queue.any fun e => e.kind = .feed then s.cycle.feedJob else none

/-- A stop takes effect (R111): the planner's unstarted entries withdrawn (R85), tools raised, zones released, window
invalidated, run over. A SEARCH or a FEED that stands unstarted behind a JOG is left in the queue (R58, R119; log 11). -/
def State.stopEffect (s : State) : State :=
  let s := s.withdrawPlanner.raiseTools.releaseZones.invalidate.clearReasons
  (s.withCycle { s.cycle with
    runActive := false, stopPending := false, feedJob := s.queuedFeedJob }).setCycle .idle

/-! ### The entry of a fault (R130, R145 to R148) -/

/-- The FEED that a fault stop ends, with its commanded distance and encoder count: the one executing, or the one
being taken, whose count is 0 (R130 step 1). -/
def State.stoppedFeed (taking : Option Entry) (s : State) : Option (Int × Int) :=
  match s.motion.executingEntry, taking with
  | some (.feed d), _ => some (d, s.motion.encoder)
  | _, some (.feed d) => some (d, 0)
  | _, _ => none

/-- The motion unit's part of a fault stop (R130). -/
def State.faultStop (taking : Option Entry) (s : State) : State :=
  let count : Int := match taking with
    | some (.feed _) => 0
    | _ => s.motion.encoder
  (s.withMotion { s.motion with
    queue := []
    executing := false
    kiss := .raised
    thru := .raised
    speed := none
    commanded := none
    encoder := count
    guardTimer := none
    homing := none }).withBed { s.bed with toolKiss := none, toolThru := none, feedDrive := false }

/-- Writes the feed remainder and the windows owed of a FEED that ended without the pointer advancing (R92). -/
def State.writeOwed (feed : Option (Int × Int)) (s : State) : State := match feed with
  | none => s
  | some (commanded, count) =>
    let windows := match s.cycle.feedJob with
      | some j => j.windows
      | none => 0
    let owed := min windows (s.windowCount - s.cycle.pointer)
    s.withCycle { s.cycle with owed := owed, remainder := if owed = 0 then 0 else commanded - count }

/-- What qualifies the cycle state in a fault record (R146). -/
def CycleControl.qualifier (c : CycleControl) : StateQualifier :=
  if c.state = .held then match c.hold with
    | some r => .hold r
    | none => .none
  else if c.state = .suspended then match c.taken with
    | some t => .resume t.resume
    | none => .none
  else if c.state = .testcut then match c.before with
    | some b => .testReturn b.state
    | none => .none
  else .none

/-- The planner at a fault entry: issue pointer to the cursor, start-passed mark cleared (R84, R85, R145). -/
def Worklist.faulted (w : Worklist) : Worklist := { w.rewind with startPassed := none, stopped := false }

/-- The homed flag cleared and the head position absent (R126). -/
def State.loseHome (s : State) : State := s.withMotion { s.motion with homed := false, head := none }

/-- The fault record of a fault entry (R146), its head position as the fault stop leaves it. -/
def State.faultRecord (kind : FaultKind) (detail : FaultDetail) (s : State) : FaultRecord where
  kind := kind
  detail := detail
  stateAtEntry := s.cycle.state
  qualifier := s.cycle.qualifier
  window := s.cycle.pointer
  itemSlot := if s.cycle.runActive then s.cursorItem else none
  head := if s.motion.homed then s.motion.head else none
  followOn := 0
  lastFollowOn := none

/-- A fault entry (R145): record, fault stop with what a stopped FEED leaves owed, safe values, invalidation while a
run is active, home lost at ESTOP and HOME_FAIL, suspension, hold and test cut given up, HALTED, FAULT notice. -/
def State.faultEntry (kind : FaultKind) (detail : FaultDetail) (taking : Option Entry) (s : State) : State :=
  let record := s.faultRecord kind detail
  let feed := s.stoppedFeed taking
  let s := ((s.faultStop taking).writeOwed feed).mapWorklist Worklist.faulted
  let s := s.withBed s.bed.safe
  let s := if s.cycle.runActive then s.invalidate else s
  let s := if kind = .estop ∨ kind = .homeFail then s.loseHome else s
  let s := s.clearReasons.setCycle .halted
  (s.withCycle { s.cycle with
    stopPending := false
    before := none
    feedJob := none
    testCuts := 0
    fault := some record }).emit (faultNotice record)

/-- A follow-on fault (R148). -/
def State.followOnFault (kind : FaultKind) (r : FaultRecord) (s : State) : State :=
  let s := s.withCycle { s.cycle with
    fault := some { r with followOn := min (r.followOn + 1) 255, lastFollowOn := some kind } }
  let s := s.withBed s.bed.safe
  if kind = .estop then s.loseHome else s

/-- A fault raised to the cycle controller: an entry when none is latched, else a follow-on (R144 to R148).
`taking` is the entry being taken when the fault is raised at a take. -/
def State.raiseFault (kind : FaultKind) (detail : FaultDetail) (taking : Option Entry) (s : State) : State :=
  match s.cycle.fault with
  | none => s.faultEntry kind detail taking
  | some r => s.followOnFault kind r

end Sys2Proof.Machine
end

