-- ==== Sys2Proof/Machine/Motion.lean ====
section
/-! DEFINITION. The motion unit: taking an entry (R120, R121, R127, R137), the end of an entry (R123), homing
(R125), and the close of every command. -/

namespace Sys2Proof.Machine

/-! ### Taking an entry -/

/-- What the limit check reports of an entry: `none` when it passes, else the target (R120); for a SEARCH the first
corner found outside, (x0, y0) before (x1, y1) (R170, log 28). HOME and FEED have no target and pass. -/
def limitFailure (homed : Bool) : Entry → Option BedPos
  | .travel _ t => if homed && t.onBed then none else some t
  | .cut _ t _ => if homed && t.onBed then none else some t
  | .search r =>
    if !(BedPos.mk r.x0 r.y0).onBed then some ⟨r.x0, r.y0⟩
    else if !(BedPos.mk r.x1 r.y1).onBed then some ⟨r.x1, r.y1⟩
    else if homed then none else some ⟨r.x0, r.y0⟩
  | .home => none
  | .feed _ => none

/-- The head entry becomes the executing entry, with the speed it reads (R120, R122). -/
def State.startExecuting (speed : Option Nat) (s : State) : State :=
  s.withMotion { s.motion with executing := true, speed := speed }

/-- A FEED entry begins (R127). -/
def State.startFeed (distance : Nat) (s : State) : State :=
  let s := (s.startExecuting none).raiseTools.releaseZones
  (s.withMotion { s.motion with
    encoder := 0
    commanded := some distance
    guardTimer := some s.motion.params.feedGuardTime }).withBed { s.bed with feedDrive := true }

/-- A HOME entry begins; an axis whose home line is on is home at once (R125). -/
def State.startHome (s : State) : State :=
  let s := (s.startExecuting (some s.motion.params.travelSpeed)).raiseTools
  s.withMotion { s.motion with homing := some ⟨s.homeX, s.homeY⟩ }

/-- The executing entry leaves the queue at its completion (R123 step 2). -/
def State.endEntry (s : State) : State :=
  s.withMotion { s.motion with
    queue := s.motion.queue.tail
    executing := false
    speed := none
    commanded := none
    homing := none }

/-- The tools are raised when a completion leaves the queue empty (R121, R123 step 5). -/
def State.restTools (s : State) : State := if s.motion.queue.isEmpty then s.raiseTools else s

/-- The move completion of a HOME entry: head (0, 0), homed, and HOMING gives way to IDLE (R94, R125). -/
def State.completeHome (s : State) : State :=
  let s := s.endEntry
  let s := s.withMotion { s.motion with head := some ⟨0, 0⟩, homed := true }
  let s := if s.cycle.state = .homing then s.setCycle .idle else s
  s.restTools

/-- The HOME entry completes when both axes are home (R125). -/
def State.settleHome (s : State) : State := match s.motion.homing with
  | some ⟨true, true⟩ => s.completeHome
  | _ => s

/-- The take of the entry at the head of the queue: the GUARD test before the limit check (R120, R137), a FEED's
MEDIA_END test (R127), then the tools set for its kind (R121). -/
def State.takeEntry (e : Entry) (s : State) : State :=
  if s.guardOpen then s.raiseFault .guard (.guard e.kind) (some e)
  else match limitFailure s.motion.homed e with
    | some t => s.raiseFault .motionLimit (.limit e.kind t (!s.motion.homed)) (some e)
    | none => match e with
      | .feed d =>
        if s.mediaEnd then s.raiseFault .mediaEnd (.mediaEnd false d 0) (some e) else s.startFeed d
      | .home => s.startHome.settleHome
      | .travel _ _ => (s.startExecuting (some s.motion.params.travelSpeed)).raiseTools
      | .search _ => (s.startExecuting (some s.motion.params.travelSpeed)).raiseTools
      | .cut tool _ _ => (s.startExecuting (some (s.motion.params.toolSpeed tool))).lowerTool tool

/-- Takes entries until one executes or none is left: a HOME that is home at once ends at its take (R120, R125).
`n` bounds the takes by the queue's length. -/
def State.takeEntries : Nat → State → State
  | 0, s => s
  | n + 1, s =>
    if s.motion.executing then s
    else match s.motion.queue with
      | [] => s
      | e :: _ =>
        let s := s.takeEntry e
        if e = .home then s.takeEntries n else s

/-- The close of a command: the motion unit takes its next entry after the other units have acted (R120, R123
step 5), then the notices formed are queued (log 6). -/
def State.close (s : State) : State := (s.takeEntries s.motion.queue.length).flush

/-- A command begins with no notice formed (log 6). -/
def State.begin (s : State) : State := s.withLink { s.link with formed := [] }

end Sys2Proof.Machine
end

