-- ==== Sys2Proof/Machine/Planner.lean ====
section
/-! DEFINITION. The cut planner: pieces and crossing points (R76, R77), weed borders (R78), items and their order
(R79, R80), building a worklist (R75, R81), issuing entries (R82 to R84), and taking CUT completions (R86, R87). -/

namespace Sys2Proof.Machine

/-! ### Pieces (R76, R77) -/

/-- A panel's cut range in a window (R72): its two boundaries, and whether the upper one is included. -/
structure CutRange where
  lo : Nat
  hi : Nat
  closed : Bool
  deriving DecidableEq, Repr

/-- The cut range of a panel in window `k` (R72). -/
def cutRange (lp : LayoutParams) (p : Panel) (k : Nat) : CutRange :=
  ⟨lp.windowStart k, lp.windowStart (k + 1), k = p.lastWindow lp⟩

/-- A v is below the cut range. -/
def CutRange.below (c : CutRange) (v : Nat) : Bool := v < c.lo
/-- A v is above the cut range. -/
def CutRange.above (c : CutRange) (v : Nat) : Bool := if c.closed then c.hi < v else c.hi ≤ v
/-- A v is inside the cut range. -/
def CutRange.inside (c : CutRange) (v : Nat) : Bool := !c.below v && !c.above v

/-- Vertex `i` of a closed outline, counting round (R76). -/
def vertexAt (vs : List Vertex) (i : Nat) : Vertex := vs.getD (i % vs.length) ⟨0, 0⟩

/-- Edge `i` touches the window (R76). -/
def touches (c : CutRange) (vs : List Vertex) (i : Nat) : Bool :=
  let a := (vertexAt vs i).v
  let b := (vertexAt vs (i + 1)).v
  c.inside a || c.inside b || (c.below a && c.above b) || (c.above a && c.below b)

/-- The number of edges of the open piece that goes on with edge `i`: the run ends with the first edge whose end
vertex is not inside (R76). `n` bounds the run by the outline's edges. -/
def runEdges (c : CutRange) (vs : List Vertex) : Nat → Nat → Nat
  | 0, _ => 1
  | n + 1, i => if c.inside (vertexAt vs (i + 1)).v then runEdges c vs n (i + 1) + 1 else 1

/-- The crossing point of edge `i` on the side of a vertex at `v` outside the range: its v is the boundary, its u
is interpolated from vertex i to vertex i + 1 and rounded (R77). -/
def crossing (c : CutRange) (vs : List Vertex) (i v : Nat) : Vertex :=
  let bound := if c.below v then c.lo else c.hi
  let a := vertexAt vs i
  let b := vertexAt vs (i + 1)
  let num : Int := ((b.u : Int) - a.u) * ((bound : Int) - a.v)
  let den : Int := (b.v : Int) - a.v
  ⟨(roundDiv (a.u * den.natAbs + (if den < 0 then -num else num)) den.natAbs).toNat, bound⟩

/-- A piece: first and last vertex, segments, entry and exit point of an open one (R76, R77). -/
structure Piece where
  first : Nat
  last : Nat
  segments : Nat
  entry : Option Vertex
  exit : Option Vertex
  deriving DecidableEq, Repr

/-- The open piece that begins with edge `i`. -/
def openPiece (c : CutRange) (vs : List Vertex) (i : Nat) : Piece :=
  let segs := runEdges c vs vs.length i
  let last := (i + segs) % vs.length
  ⟨i, last, segs, some (crossing c vs i (vertexAt vs i).v),
    some (crossing c vs ((i + segs - 1) % vs.length) (vertexAt vs (i + segs)).v)⟩

/-- The open pieces in ascending first vertex: one for each touching edge whose start vertex is not inside. -/
def openPieces (c : CutRange) (vs : List Vertex) : List Piece :=
  ((List.range vs.length).filter fun i => touches c vs i && !c.inside (vertexAt vs i).v).map (openPiece c vs)

/-- The last piece put first when it goes round past the last vertex and so holds the edge of lowest index (R80). -/
def rotatePieces (n : Nat) (ps : List Piece) : List Piece := match ps.getLast? with
  | some p => if n < p.first + p.segments then p :: ps.dropLast else ps
  | none => ps

/-- The pieces of a closed outline in the order of R80. -/
def piecesOf (c : CutRange) (vs : List Vertex) : List Piece :=
  if vs.isEmpty then []
  else if vs.all fun w => c.inside w.v then [⟨0, 0, vs.length, none, none⟩]
  else rotatePieces vs.length (openPieces c vs)

/-- Point `j` of a piece (R77). -/
def piecePoint (vs : List Vertex) (first segments : Nat) (entry exit : Option Vertex) (j : Nat) : Vertex :=
  match entry, exit with
  | some e, some x => if j = 0 then e else if segments ≤ j then x else vertexAt vs (first + j)
  | _, _ => vertexAt vs (first + j)

/-! ### Outlines on the roll (R5, R78) -/

/-- A placed panel's outline, mapped to the roll (R5). -/
def State.mappedOutline (s : State) (p : Panel) : List Vertex := match p.placement with
  | some pl => (s.store.vertices p.chain p.vertexCount).map (p.mapVertex pl)
  | none => []

/-- A placed panel's weed border as a four-vertex outline (R78), with the WEED_DISTANCE and the v of the last row
given. -/
def weedBorder (lp : LayoutParams) (distance lastRow : Nat) (p : Panel) : List Vertex := match p.placement with
  | some pl =>
    let u0 := pl.x - distance
    let u1 := min lp.mediaWidth (pl.x + p.ew pl.rotation + distance)
    let v0 := max (lp.windowStart (p.firstWindow lp)) (pl.y - distance)
    let v1 := min (min (lp.windowStart (p.lastWindow lp + 1)) lastRow) (pl.y + p.eh pl.rotation + distance)
    [⟨u0, v0⟩, ⟨u1, v0⟩, ⟨u1, v1⟩, ⟨u0, v1⟩]
  | none => []

/-- The closed outline an item is cut from: its panel's outline or weed border. -/
def State.itemOutline (s : State) (w : Worklist) (it : Item) : List Vertex := match it.kind with
  | .outline => s.mappedOutline (s.panel it.slot)
  | .weed => weedBorder s.nest.params w.weedDistance w.lastRow (s.panel it.slot)

/-- Point `j` of an item's piece, computed again from the outline (R79). -/
def State.itemPoint (s : State) (w : Worklist) (it : Item) (j : Nat) : Vertex :=
  piecePoint (s.itemOutline w it) it.first it.segments it.entry it.exit j

/-! ### Building a worklist (R75, R79 to R81) -/

/-- The passes of an OUTLINE item (R79). -/
def Planner.outlinePasses (pl : Planner) (p : Panel) : Nat :=
  if p.passes = 0 then match p.tool with
    | .kiss => pl.kissPasses
    | .thru => pl.thruPasses
  else p.passes

/-- The item of a piece, PENDING with cursor (0, 0) (R79). -/
def itemOf (slot : Slot) (kind : ItemKind) (tool : Tool) (passes : Nat) (pc : Piece) : Item :=
  ⟨slot, kind, tool, pc.first, pc.last, pc.entry, pc.exit, pc.segments, passes, 0, 0, .pending⟩

/-- The points of pieces. -/
def piecePoints (vs : List Vertex) (ps : List Piece) : List Vertex :=
  ps.flatMap fun pc => (List.range (pc.segments + 1)).map (piecePoint vs pc.first pc.segments pc.entry pc.exit)

/-- A selected panel's items in a window with its place in the order: least v, least u, slot (R80). -/
structure PanelPlan where
  minV : Nat
  minU : Nat
  slot : Slot
  items : List Item
  deriving DecidableEq, Repr

/-- The least of a list, 0 for none. -/
def leastOf : List Nat → Nat
  | [] => 0
  | a :: l => l.foldl Nat.min a

/-- The plan of one selected panel in window `k`: its WEED items before its OUTLINE items; `none` when it yields no
piece (R75, R79, R80). -/
def State.planPanel (s : State) (k lastRow : Nat) (slot : Slot) : Option PanelPlan :=
  let p := s.panel slot
  let lp := s.nest.params
  let c := cutRange lp p k
  let outline := s.mappedOutline p
  let border := if p.weed then weedBorder lp s.plan.weedDistance lastRow p else []
  let wps := piecesOf c border
  let ops := piecesOf c outline
  let pts := piecePoints border wps ++ piecePoints outline ops
  if wps.isEmpty && ops.isEmpty then none
  else some
    ⟨leastOf (pts.map (·.v)), leastOf (pts.map (·.u)), slot,
      wps.map (itemOf slot .weed .kiss s.plan.kissPasses) ++
      ops.map (itemOf slot .outline p.tool (s.plan.outlinePasses p))⟩

/-- The order of panels in a worklist (R80). -/
def PanelPlan.before (a b : PanelPlan) : Bool :=
  a.minV < b.minV || (a.minV = b.minV && (a.minU < b.minU || (a.minU = b.minU && a.slot.val < b.slot.val)))

/-- The panels selected for window `k`, in ascending slot (R75). -/
def State.selected (s : State) (k : Nat) : List Slot :=
  (List.finRange 96).filter fun i => (s.panel i).toCut && (s.panel i).meets s.nest.params k

/-- The v of the last row (R78). -/
def State.lastRowV (s : State) : Nat := s.nest.params.rowV (s.rowCount - 1)

/-- The items a build for window `k` gives, in the order of R80. -/
def State.builtItems (s : State) (k : Nat) : List Item :=
  (sortBy PanelPlan.before ((s.selected k).filterMap (s.planPanel k s.lastRowV))).flatMap (·.items)

/-- What a window entry hands the cycle controller (R75). -/
inductive EntryOutcome where
  | items (count : Nat)
  | empty (count : Nat)
  | full (count : Nat)
  deriving DecidableEq, Repr

/-- ITEMS or EMPTY for a worklist, with the number of items it holds (R75). -/
def Worklist.outcome (w : Worklist) : EntryOutcome :=
  if w.items.any Item.live then .items w.items.length else .empty w.items.length

/-- Builds the worklist of the window at the pointer; more than 256 items make none (R75, R81). A build that fits
queues CYCLE(window start). -/
def State.buildWorklist (s : State) : State × EntryOutcome :=
  let k := s.cycle.pointer
  let items := s.builtItems k
  if Config.maxItems < items.length then
    (s.withPlan { s.plan with worklist := none }, .full items.length)
  else
    let w : Worklist :=
      ⟨k, items, false, issueAt items (firstLiveFrom 0 items), none, false, s.plan.weedDistance, s.lastRowV⟩
    ((s.withPlan { s.plan with worklist := some w }).emit (windowStartNotice k items.length), w.outcome)

/-- Enters the window at the pointer: re-enters its worklist, issue pointer at the cursor and start-passed mark
cleared, or builds one (R75). -/
def State.planEnter (s : State) : State × EntryOutcome := match s.plan.worklist with
  | some w =>
    if w.window = s.cycle.pointer then
      let w := { w.rewind with startPassed := none, stopped := false }
      ((s.withPlan { s.plan with worklist := some w }).emit (windowStartNotice w.window w.items.length), w.outcome)
    else s.buildWorklist
  | none => s.buildWorklist

/-! ### Item starts and breakpoints (R84, R102) -/

/-- What the planner reports at an item start (R84). -/
structure ItemStart where
  window : Nat
  item : Nat
  slot : Slot
  band : Option Nat
  deriving DecidableEq, Repr

/-- An item of the worklist that `which` names is ACTIVE or DONE. -/
def Worklist.begun (w : Worklist) (which : Item → Bool) : Bool :=
  w.items.any fun it => which it && (it.state = .active || it.state = .done)

/-- A breakpoint matches an item start (R102). -/
def Breakpoint.hits (b : Breakpoint) (w : Worklist) (r : ItemStart) : Bool := match b.kind with
  | .off => false
  | .panelStart slot => r.slot.val = slot && !(w.begun fun it => it.slot = r.slot)
  | .windowStart n => r.window = n && !(w.begun fun _ => true)
  | .item => true
  | .band n => r.band = some n

/-- The breakpoints with an action that match, bit n for entry n (R102). -/
def hitBits (bps : Table Breakpoint 4) (action : BreakAction) (w : Worklist) (r : ItemStart) : BitVec 4 :=
  let hit (i : Fin 4) : Bool := (bps.get i).action = action && (bps.get i).hits w r
  BitVec.ofNat 4 (bitAt 0 (hit 0) + bitAt 1 (hit 1) + bitAt 2 (hit 2) + bitAt 3 (hit 3))

/-- The cycle controller's test of an item start (R102): the state with its BREAK notice and its reasons added, and
whether the answer is go. -/
def State.testItemStart (w : Worklist) (r : ItemStart) (s : State) : State × Bool :=
  let notify := hitBits s.cycle.breakpoints .notify w r
  let halt := hitBits s.cycle.breakpoints .halt w r
  let s := if notify = 0 then s else s.emit (breakNotice notify r.window r.item r.slot)
  let s := s.withCycle { s.cycle with
    reasons := { s.cycle.reasons with
      step := s.cycle.reasons.step || s.cycle.step
      brk := s.cycle.reasons.brk || halt != 0 }
    halts := s.cycle.halts ||| halt }
  (s, !s.cycle.reasons.any)

/-! ### Issuing (R82, R83) -/

/-- Even passes run forward and odd passes backward on an open piece; every pass of a closed one runs forward
(R82). -/
def Item.forward (it : Item) (pass : Nat) : Bool := it.entry.isNone || pass % 2 = 0

/-- The point at which the segment after `n` segments of a pass begins (R82). -/
def Item.pointAfter (it : Item) (pass n : Nat) : Nat := if it.forward pass then n else it.segments - n

/-- The segment cut after `n` segments of a pass (R82). -/
def Item.segmentAfter (it : Item) (pass n : Nat) : Nat := if it.forward pass then n else it.segments - 1 - n

/-- How one issuing step ended. -/
inductive IssueStop where
  /-- an entry was placed -/
  | placed
  /-- the end of the list -/
  | ended
  /-- the cycle answered stop at an item start -/
  | stopped
  /-- the mark unit refused the correction -/
  | refused
  deriving DecidableEq, Repr

/-- The issue pointer after a CUT entry of item `i` has been placed (R83). -/
def Worklist.afterCut (w : Worklist) (i : Nat) (it : Item) (pass issued : Nat) : IssuePointer :=
  if issued + 1 < it.segments then ⟨some i, pass, issued + 1, false, false⟩
  else if pass + 1 < it.passes then ⟨some i, pass + 1, 0, false, false⟩
  else issueAt w.items (firstLiveFrom (i + 1) (w.items.drop (i + 1)))

/-- Places the TRAVEL to an item's cursor point, when its correction is answered (R83). -/
def State.issueTravel (w : Worklist) (it : Item) (s : State) : State × IssueStop :=
  match s.correct (s.itemPoint w it (it.pointAfter w.issue.pass w.issue.issued)) with
  | none => (s.withPlan { s.plan with worklist := some w }, .refused)
  | some target =>
    let w := { w with issue := { w.issue with travelDue := false, reported := false } }
    ((s.withPlan { s.plan with worklist := some w }).place (.travel .planner target), .placed)

/-- Places the CUT of the next segment, when its correction is answered (R83). -/
def State.issueCut (w : Worklist) (i : Nat) (it : Item) (s : State) : State × IssueStop :=
  let pass := w.issue.pass
  let n := w.issue.issued
  match s.correct (s.itemPoint w it (it.pointAfter pass (n + 1))) with
  | none => (s.withPlan { s.plan with worklist := some w }, .refused)
  | some target =>
    let w := { w with issue := w.afterCut i it pass n }
    ((s.withPlan { s.plan with worklist := some w }).place
      (.cut it.tool target (some ⟨i, pass, it.segmentAfter pass n⟩)), .placed)

/-- The band of a point in the current span (R64, R84). -/
def State.pointBand (s : State) (pt : Vertex) : Option Nat := match s.marks.span with
  | some sp => bandOf s.nest.params sp pt.v
  | none => none

/-- The item start is still to be reported: cursor (0, 0), not reported since the pointer came to it, and not the
item of the start-passed mark (R84). -/
def Worklist.reportDue (w : Worklist) (i : Nat) (it : Item) : Bool :=
  it.passDone = 0 && it.segDone = 0 && !w.issue.reported && w.startPassed ≠ some i

/-- One issuing step at item `i`: the report and the TRAVEL, or a CUT (R83, R84). -/
def State.issueItem (w : Worklist) (i : Nat) (it : Item) (s : State) : State × IssueStop :=
  if w.issue.travelDue then
    if w.reportDue i it then
      let r : ItemStart := ⟨w.window, i, it.slot, s.pointBand (s.itemPoint w it 0)⟩
      match s.testItemStart w r with
      | (s, true) => s.issueTravel { w with issue := { w.issue with reported := true } } it
      | (s, false) =>
        (s.withPlan { s.plan with worklist := some { w with startPassed := some i, stopped := true } }, .stopped)
    else
      let w := if w.startPassed = some i then
        { w with startPassed := none, issue := { w.issue with reported := true } } else w
      s.issueTravel w it
  else s.issueCut w i it

/-- The issue pointer moved past items no longer PENDING or ACTIVE (R83, R90). -/
def Worklist.passDone (w : Worklist) : Worklist := match w.issue.item with
  | none => w
  | some i => match w.items[i]? with
    | none => { w with issue := issueAt w.items none }
    | some it =>
      if it.live then w else { w with issue := issueAt w.items (firstLiveFrom i (w.items.drop i)) }

/-- One issuing step. -/
def State.issueOne (s : State) : State × IssueStop := match s.plan.worklist with
  | none => (s, .ended)
  | some w =>
    let w := w.passDone
    match w.issue.item with
    | none => (s.withPlan { s.plan with worklist := some w }, .ended)
    | some i => match w.items[i]? with
      | none => (s, .ended)
      | some it => s.issueItem w i it

/-- Issues entries one after another while the queue has a free place; `n` is the number of free places (R83). With no
free place nothing is issued and no item start is reported: the report waits for the place (log 35). -/
def State.issueLoop : Nat → State → State × IssueStop
  | 0, s => (s, .placed)
  | n + 1, s => match s.issueOne with
    | (s, .placed) => s.issueLoop n
    | (s, .ended) => (s, .ended)
    | (s, .stopped) => (s, .stopped)
    | (s, .refused) => (s, .refused)

/-- The planner issues (R83), unless a stop is pending (R111) or the answer stop still stands (R84). -/
def State.issue (s : State) : State × IssueStop :=
  if s.cycle.stopPending then (s, .ended)
  else match s.plan.worklist with
    | none => (s, .ended)
    | some w => if w.stopped then (s, .stopped) else s.issueLoop s.motion.freePlaces

/-! ### Completions (R86, R87) -/

/-- The cursor of an item after a matching completion (R86). -/
def Item.cutOne (it : Item) : Item :=
  if it.segDone + 1 < it.segments then { it with segDone := it.segDone + 1, state := .active }
  else if it.passDone + 1 < it.passes then { it with passDone := it.passDone + 1, segDone := 0, state := .active }
  else { it with passDone := it.passDone + 1, segDone := 0, state := .done }

/-- A CUT completion matches the cursor item, its pass and its next segment (R86). -/
def Worklist.matching (w : Worklist) (r : CutRef) : Option Item :=
  if w.cursorIndex = some r.item then match w.items[r.item]? with
    | some it =>
      if it.passDone = r.pass ∧ it.segmentAfter it.passDone it.segDone = r.segment then some it else none
    | none => none
  else none

/-- The planner takes a CUT completion; the slot of the item whose cursor it advanced, when it matched (R86). -/
def State.takeCut (r : CutRef) (s : State) : State × Option Slot := match s.plan.worklist with
  | none => (s, none)
  | some w => match w.matching r with
    | none => (s, none)
    | some it =>
      (s.withPlan { s.plan with worklist := some { w with items := w.items.set r.item it.cutOne } }, some it.slot)

/-- A PLACED panel's first taken cut: CUTTING, windows_left l − k + 1 (R87). -/
def State.firstCut (slot : Slot) (s : State) : State :=
  let p := s.panel slot
  if p.state = .placed then
    s.setPanel slot { p with
      state := .cutting
      windowsLeft := some (p.lastWindow s.nest.params - s.cycle.pointer + 1) }
  else s

/-- The panel's items that are PENDING or ACTIVE become SKIPPED; the issue pointer follows the cursor when the cursor
item was one of them (R90). -/
def Worklist.skip (w : Worklist) (slot : Slot) : Worklist :=
  let items := w.items.map fun it => if it.slot = slot && it.live then { it with state := .skipped } else it
  let skipped : Worklist := { w with items := items }
  if skipped.cursorIndex = w.cursorIndex then skipped else skipped.rewind

/-- The number of items a skip of the panel makes SKIPPED (R112). -/
def Worklist.skipCount (w : Worklist) (slot : Slot) : Nat :=
  (w.items.filter fun it => it.slot = slot && it.live).length

end Sys2Proof.Machine
end

