-- ==== Sys2Proof/Machine/Flow.lean ====
section
/-! DEFINITION. The course of a run across the units: window completions (R88, R99), issuing and what it leads to
(R83, R103), readying (R56 to R62, R97, R98), settles (R93), window entries (R95, R96, R100, R104), resuming
(R107 to R109), and the completions of moves, searches and feeds (R123). -/

namespace Sys2Proof.Machine

/-! ### Window completion (R88, R99) -/

/-- A panel at the completion of window `k`: windows_left one less while it is CUTTING and meets the window; CUT at
0 (R87, R88). -/
def Panel.atWindowDone (lp : LayoutParams) (k : Nat) (p : Panel) : Panel :=
  if p.state = .cutting && p.meets lp k then match p.windowsLeft with
    | some n => if n ≤ 1 then { p with state := .cut, windowsLeft := none } else { p with windowsLeft := some (n - 1) }
    | none => p
  else p

/-- The slots that the completion of window `k` brings to CUT, ascending (R88). -/
def State.cutAtDone (s : State) (k : Nat) : List Slot :=
  (List.finRange 96).filter fun i =>
    (s.panel i).state != .cut && ((s.panel i).atWindowDone s.nest.params k).state = .cut

/-- The planner completes window `k` (R88): completed flag, windows_left, PANEL_DONE, CYCLE(window done), and
CYCLE(run done) when nothing is left; the Bool says FEED. A worklist already completed counts nothing twice. -/
def State.completeWindow (s : State) : State × Bool :=
  let k := s.cycle.pointer
  let lp := s.nest.params
  let already := match s.plan.worklist with
    | some w => w.completed
    | none => false
  let s := if already then s else
    let done := s.cutAtDone k
    let s' := (s.withStore { s.store with panels := s.store.panels.map fun _ p => p.atWindowDone lp k }).mapWorklist
      fun w => { w with completed := true }
    done.foldl (fun t i => t.emit (panelDoneNotice i k)) s'
  let s := s.emit (windowDoneNotice k)
  if anyToCutFrom lp s.store.panels.cells (k + 1) then (s, true) else (s.emit (runDoneNotice k), false)

/-- The cycle controller places a FEED entry: FEEDING, zones released, the job recorded (R93, R95, R99, R115). -/
def State.placeFeed (distance : Nat) (job : FeedJob) (s : State) : State :=
  let s := (s.setCycle .feeding).releaseZones
  (s.withCycle { s.cycle with feedJob := some job }).place (.feed distance)

/-- A run feed of one window (R99, R107). -/
def State.runFeed (s : State) : State := s.placeFeed s.nest.params.advance ⟨.run, 1⟩

/-- The end of a run at RUN_DONE (R99). -/
def State.endRun (s : State) : State :=
  let s := s.releaseZones.clearReasons
  (s.withCycle { s.cycle with runActive := false, stopPending := false, feedJob := none }).setCycle .idle

/-- The cycle acts on a window completion (R99); R99 gives way to a pending stop (R111, log 12). -/
def State.windowDone (s : State) : State :=
  match s.completeWindow with
  | (s, false) => if s.cycle.stopPending then s.stopEffect else s.endRun
  | (s, true) =>
    if s.suspendPending then s.takeSuspension .feed
    else if s.cycle.stopPending then s.stopEffect
    else s.runFeed

/-! ### Issuing as the cycle has it (R83, R103) -/

/-- The window has a worklist with no PENDING or ACTIVE item and its completed flag clear (R88). -/
def State.windowSpent (s : State) : Bool := match s.plan.worklist with
  | some w => !w.completed && !w.items.any Item.live
  | none => false

/-- A pending STEP or BREAK suspension is taken when no planner entry remains in the queue (R103). -/
def State.suspendIfDrained (s : State) : State :=
  if s.suspendPending && !s.plannerQueued then s.takeSuspension .continue else s

/-- The cycle has the planner issue (R83): the answer stop no longer stands; a window with nothing left to cut
completes (R88, R90); `onRefused` acts when a correction is refused with no planner entry queued (R83); a
suspension that the item start brought is taken when nothing is queued (R103). -/
def State.issueWith (onRefused : State → State) (s : State) : State :=
  let s := s.mapWorklist fun w => { w with stopped := false }
  match s.issue with
  | (s, stop) =>
    if s.windowSpent then s.windowDone
    else if stop = .refused && !s.plannerQueued then onRefused s
    else if stop = .stopped then s.suspendIfDrained
    else s

/-! ### Readying (R56 to R62, R97, R98) -/

/-- The readying ends with MARK_MISSED (R62, R98). -/
def State.heldMissed (row : Nat) (side : Side) (s : State) : State :=
  s.enterHeld .markMissed [u8 row, u8 side.code]

/-- The checks, when no mark of the span is UNREAD, and the outcome (R62, R98): READY goes to CUTTING and `onReady`. A
window with no seam pending and every band usable is READY without a check (R59, R107); else the seam check and the
geometry check are made (R60, R61). -/
def State.checks (onReady : State → State) (s : State) : State :=
  match s.marks.firstIn .missed with
  | some (row, side) => s.heldMissed row side
  | none =>
    if s.marks.seam.isNone && s.marks.spanUsable then onReady (s.setCycle .cutting)
    else match s.marks.seamFailure with
    | some (d, side) => s.enterHeld .seamDeviation (be32 (roundSqrtDiv d 1) ++ [u8 side.code])
    | none =>
      let s := s.withMarks ({ s.marks with seam := none }.checkSpan s.nest.params)
      match s.marks.firstFailure with
      | some (band, kind, ppm) => s.enterHeld .markGeometry ([u8 band, u8 kind.code] ++ be32 ppm)
      | none => onReady (s.setCycle .cutting)

/-- A search result recorded against a mark (R57): found makes it READ in the current window; not found leaves it
UNREAD after one attempt and makes it MISSED after two. The search in flight is cleared. -/
def State.recordSearch (row : Nat) (side : Side) (found : Option BedPos) (s : State) : State :=
  let mu := { s.marks with flight := none }
  match mu.mark row side with
  | none => s.withMarks mu
  | some m => match found with
    | some pos =>
      s.withMarks ((mu.setMark row side
        { m with state := .read, measured := some ⟨pos, s.cycle.pointer⟩ }).uncheckRow row)
    | none =>
      if m.attempts ≤ 1 then s.withMarks mu
      else s.withMarks (mu.setMark row side { m with state := .missed })

/-- The mark stands MISSED. -/
def State.isMissed (s : State) (row : Nat) (side : Side) : Bool :=
  ((s.marks.mark row side).map (·.state)) = some .missed

/-- What follows a search result in the readying phase (R57, R97, R111): a pending stop takes effect, a MISSED mark
ends the readying, a pending suspension is taken, else `goOn`. -/
def State.afterSearch (missed : Option (Nat × Side)) (goOn : State → State) (s : State) : State :=
  if !s.inReadying then s
  else if s.cycle.stopPending then s.stopEffect
  else match missed with
    | some (row, side) => s.heldMissed row side
    | none => if s.suspendPending then s.takeSuspension .continue else goOn s

/-- The mark named by `row` and `side`, when it stands MISSED. -/
def State.missedMark (s : State) (row : Nat) (side : Side) : Option (Nat × Side) :=
  if s.isMissed row side then some (row, side) else none

/-- The searches go on (R56): the next UNREAD mark is searched, or with none the checks follow. A square wholly off
the bed is an attempt that found nothing, taken at once; `n` bounds these (two for one mark end it). -/
def State.searchFrom (onReady : State → State) : Nat → State → State
  | 0, s => s
  | n + 1, s =>
    if !s.inReadying || s.cycle.stopPending then s
    else match s.marks.firstIn .unread with
      | none => s.checks onReady
      | some (row, side) => match s.marks.mark row side with
        | none => s
        | some m =>
          let centre := s.marks.searchCentre s.nest.params s.cycle.pointer row side
          let tried := s.marks.setMark row side { m with attempts := m.attempts + 1 }
          match clipToBed (searchSquare s.marks.searchSize m.attempts centre) with
          | some rect =>
            if s.motion.queue.length < Config.motionPlaces then
              (s.withMarks { tried with flight := some ⟨row, side, m.attempts + 1, rect⟩ }).place (.search rect)
            else s
          | none =>
            let s := (s.withMarks tried).recordSearch row side none
            s.afterSearch (s.missedMark row side) (State.searchFrom onReady n)

/-- The searches begin or go on; two attempts of one mark are the most that can be taken at once (R56). -/
def State.search (onReady : State → State) (s : State) : State := s.searchFrom onReady 3

/-- MEASURING in its readying phase. -/
def State.toReadying (s : State) : State :=
  let s := s.setCycle .measuring
  s.withCycle { s.cycle with phase := .readying, settleTimer := none }

/-- The current window is opened (R55). -/
def State.openWindow (advance : Option Int) (s : State) : State :=
  s.withMarks (s.marks.openWindow s.cycle.pointer s.windowSpan advance)

/-- The planner's report of a refused correction (R83): MEASURING in its readying phase, an opening without an
advance, and the searches. Should the window be ready again without motion and refuse again, the planner waits
(log 19). -/
def State.reopen (s : State) : State :=
  (s.openWindow none).toReadying.search (State.issueWith id)

/-- The cycle has the planner issue at READY and at a resumption (R83, R98). -/
def State.issueNow (s : State) : State := s.issueWith State.reopen

/-- The searches of the current window, READY going on to the cut (R56, R98). -/
def State.searchNow (s : State) : State := s.search State.issueNow

/-- The mark unit continues the readying (R59). -/
def State.continueReadying (s : State) : State := (s.withMarks s.marks.continued).toReadying.searchNow

/-! ### Settles and window entries -/

/-- The settle timer's expiry (R97). -/
def State.settleExpires (s : State) : State :=
  if s.cycle.state = .measuring ∧ s.cycle.phase = .settle then
    let s := s.withCycle { s.cycle with settleTimer := none }
    if !s.vacOk then s.raiseFault .vacuumLost (.vacuum true) none
    else if s.suspendPending then s.takeSuspension .continue
    else s.toReadying.searchNow
  else s.withCycle { s.cycle with settleTimer := none }

/-- A settle begins (R93); with VAC_SETTLE 0 its timer expires at once. -/
def State.beginSettle (s : State) : State :=
  let s := (s.setCycle .measuring).windowZonesOn
  let s := s.withCycle { s.cycle with phase := .settle, settleTimer := some s.cycle.vacSettle }
  if s.cycle.vacSettle = 0 then s.settleExpires else s

/-- HELD(PLAN_FULL) with the number of items the plan would need (R98). -/
def State.heldFull (count : Nat) (s : State) : State := s.enterHeld .planFull (be16 count)

/-- The run enters the window at the pointer and acts on the outcome (R75, R96, R104); `advance` is the encoder
advance of a run feed. -/
def State.enterWindow (advance : Option Int) (s : State) : State :=
  match s.planEnter with
  | (s, .items _) =>
    let s := s.openWindow advance
    if s.suspendPending then s.windowZonesOn.takeSuspension .settle else s.beginSettle
  | (s, .full n) => (s.openWindow advance).heldFull n
  | (s, .empty _) => s.windowDone

/-- The run is taken up from the bed (R95, R109): an owed feed first, made when the remainder is above 0 and
reckoned at once otherwise; then the window at the pointer is entered with an opening that carries no advance. -/
def State.startRun (s : State) : State :=
  if 0 < s.cycle.owed then
    if 0 < s.cycle.remainder then s.placeFeed s.cycle.remainder.toNat ⟨.owed, s.cycle.owed⟩
    else ((s.advancePointer s.cycle.owed).clearOwed).enterWindow none
  else s.enterWindow none

/-! ### Resuming (R107 to R110) -/

/-- A resumption from SUSPENDED (R107). -/
def State.resumeSuspended (s : State) : State := match s.cycle.taken with
  | some t => match t.resume with
    | .settle => s.beginSettle
    | .continue => s.continueReadying
    | .feed => s.runFeed
  | none => s.continueReadying

/-- A resumption from HELD(PLAN_FULL) (R81, R108): the plan is built when there is none. -/
def State.resumePlanFull (s : State) : State :=
  let built := match s.plan.worklist with
    | some w => (s, w.outcome)
    | none => s.buildWorklist
  match built with
  | (s, .items _) => s.beginSettle
  | (s, .empty _) => s.windowDone
  | (s, .full n) => s.heldFull n

/-- A resumption from HELD by its reason (R108, R109). -/
def State.resumeHeld (s : State) : State := match s.cycle.hold with
  | some .recover => s.startRun
  | some .planFull => s.resumePlanFull
  | some .markMissed => s.continueReadying
  | some .markGeometry => s.continueReadying
  | some .seamDeviation => s.continueReadying
  | none => s.continueReadying

/-- The guard and home checks of a resumption pass (R107, R110). -/
def State.mayResume (s : State) : Bool := !s.guardOpen && s.motion.homed

/-- A rise of PEDAL (R110). -/
def State.pedal (s : State) : State :=
  if s.cycle.state = .suspended && s.mayResume then s.resumeSuspended
  else if s.heldFor .recover && s.mayResume then s.resumeHeld
  else s

/-! ### Completions (R123) -/

/-- The safe point of a planner entry's completion in CUTTING (R103, R111). -/
def State.cutSafePoint (s : State) : State :=
  if s.cycle.state ≠ .cutting then s
  else if s.cycle.stopPending then s.stopEffect
  else if s.cycle.reasons.request then s.takeSuspension .continue
  else s.suspendIfDrained

/-- A move completion of a planner entry (R86, R88, R103, R123): the cursor is taken, the planner issues, the panel
and window checks follow, then the safe point. A correction refused with no planner entry queued goes before the safe
point: the window is opened again (R83), and a pending suspension waits for a search completion (log 32). -/
def State.plannerCompletion (ref : Option CutRef) (s : State) : State :=
  if s.cycle.state ≠ .cutting then s
  else
    let (s, cut) := match ref with
      | some r => s.takeCut r
      | none => (s, none)
    let (s, stop) := s.issue
    let s := match cut with
      | some slot => s.firstCut slot
      | none => s
    if cut.isSome && s.windowSpent then s.windowDone
    else if stop = .refused && !s.plannerQueued then s.reopen
    else s.cutSafePoint

/-- The state before TESTCUT restored with its reason or record (R113). -/
def State.endTestCut (s : State) : State :=
  let s := s.raiseTools
  match s.cycle.before with
  | some b =>
    let s := s.setCycle b.state
    s.withCycle { s.cycle with hold := b.hold, taken := b.taken, before := none, testCuts := 0 }
  | none => (s.withCycle { s.cycle with testCuts := 0 }).setCycle .idle

/-- A CUT completion of the test square; the fourth ends it (R113). -/
def State.testCutCompletion (s : State) : State :=
  if s.cycle.state = .testcut then
    if s.cycle.testCuts = 3 then s.endTestCut
    else s.withCycle { s.cycle with testCuts := s.cycle.testCuts + 1 }
  else s

/-- The move completion of a TRAVEL or CUT entry (R123): head at the target, entry gone, producer and cycle act, tools
raised over an empty queue. -/
def State.moveCompletes (s : State) : State := match s.motion.executingEntry with
  | some (.travel producer t) =>
    let s := s.endEntry
    let s := s.withMotion { s.motion with head := some t }
    let s := match producer with
      | .planner => s.plannerCompletion none
      | .mark => s
      | .cycle => s
    s.restTools
  | some (.cut _ t ref) =>
    let s := s.endEntry
    let s := s.withMotion { s.motion with head := some t }
    let s := match ref with
      | some r => s.plannerCompletion (some r)
      | none => s.testCutCompletion
    s.restTools
  | some (.search _) => s
  | some .home => s
  | some (.feed _) => s
  | none => s

/-- The move completion of a SEARCH entry, found or not (R57, R97, R123, R124). -/
def State.searchCompletes (found : Option BedPos) (s : State) : State :=
  let s := s.endEntry
  let s := match s.marks.flight with
    | some f =>
      let s := s.recordSearch f.row f.side found
      s.afterSearch (s.missedMark f.row f.side) State.searchNow
    | none => s.afterSearch none State.searchNow
  s.restTools

/-- A feed job is done: the window pointer advanced by its windows; after an owed feed and a FEED request's, nothing is
owed any more (R95, R100, R109, R115). -/
def State.jobDone (job : FeedJob) (s : State) : State :=
  let s := s.advancePointer job.windows
  if job.kind = .run then s.withCycle { s.cycle with feedJob := none } else s.clearOwed

/-- The completion of a feed as the cycle takes it (R95, R100, R109, R115): the job is done, then a FEED request's feed
leaves IDLE, and a run's goes on at the next window, or a pending stop takes effect. A feed that ends in IDLE belongs to
a run that a stop has ended: no window is entered (log 11). -/
def State.feedDelivered (count : Int) (s : State) : State := match s.cycle.feedJob with
  | none => s
  | some job =>
    let s := s.jobDone job
    if s.cycle.state ≠ .feeding then s
    else if job.kind = .request then s.setCycle .idle
    else if s.cycle.stopPending then s.stopEffect
    else s.enterWindow (if job.kind = .run then some count else none)

/-- The move completion of a FEED entry (R123, R129). -/
def State.feedCompletes (s : State) : State := (s.endEntry.feedDelivered s.motion.encoder).restTools

/-! ### Row counts handed to the mark unit (R47, R48, R52) -/

/-- The nest unit recomputes the row count and the mark unit applies it; when the span's first row goes during a
readying, the readying ends READY with no bands (R52, R62), unless a stop is pending (R111). -/
def State.recomputeRows (s : State) : State :=
  let had := s.marks.span.isSome
  let s := s.withMarks (s.marks.applyRowCount (rowCountOf s.nest.params s.store.panels.cells))
  if had && s.marks.span.isNone && s.inReadying && !s.cycle.stopPending then (s.setCycle .cutting).issueNow
  else s

end Sys2Proof.Machine
end

