-- ==== Sys2Proof/Machine/Bed.lean ====
section
/-! DEFINITION. The bed I/O unit: wires, filters, taken changes and what each line does (R131 to R140), and the
commands LINE_WIRE_CHANGE and FILTER_EXPIRY. -/

namespace Sys2Proof.Machine

/-- A filter's time in milliseconds (R132). -/
def Filter.time : Filter → Nat
  | .none => 0
  | .f2 => 2
  | .f8 => 8
  | .f32 => 32

/-- One line replaced. -/
def State.setLine (i : Fin 8) (l : Line) (s : State) : State :=
  s.withBed { s.bed with lines := s.bed.lines.set i l }

/-- A taken rise of a home line: the axis being driven toward it is home (R125). -/
def State.homeRise (axis : Axis) (s : State) : State := match s.motion.homing with
  | none => s
  | some h =>
    let h := match axis with
      | .x => { h with xHome := true }
      | .y => { h with yHome := true }
    (s.withMotion { s.motion with homing := some h }).settleHome

/-- What a taken change of a line does to the other units (R136 to R140). -/
def State.lineActs (i : Fin 8) (rise : Bool) (s : State) : State :=
  match i.val, rise with
  | 0, true => s.raiseFault .estop .none none
  | 1, true => match s.motion.executingEntry with
    | some e => s.raiseFault .guard (.guard e.kind) none
    | none => s
  | 2, false =>
    if s.cycle.state = .measuring ∨ s.cycle.state = .cutting ∨ s.cycle.state = .suspended ∨
        s.cycle.state = .testcut then
      s.raiseFault .vacuumLost (.vacuum false) none
    else s
  | 3, true => match s.motion.executingEntry with
    | some (.feed d) => s.raiseFault .mediaEnd (.mediaEnd true d s.motion.encoder) none
    | _ => s
  | 5, true => s.pedal
  | 6, true => if s.homeExecuting then s.homeRise .x else s
  | 7, true => if s.homeExecuting then s.homeRise .y else s
  | _, _ => s

/-- The line with its wire's level taken, and the pair of an enabled change latched (R132, R134). -/
def Line.take (l : Line) : Line :=
  { l with
    taken := l.wire
    timer := none
    riseChange := l.riseChange || (l.wire && l.riseEn)
    fallChange := l.fallChange || (!l.wire && l.fallEn) }

/-- The wire's level becomes the taken level: an enabled change queues INPUT first, and then the unit acts
(R132, R134). A wire at the taken level changes nothing but stops the timer. -/
def State.takeLevel (i : Fin 8) (s : State) : State :=
  let l := s.bed.lines.get i
  let s := s.setLine i l.take
  if l.wire = l.taken then s
  else
    let s := if (if l.wire then l.riseEn else l.fallEn) then s.emit (inputNotice i l.wire s.levels) else s
    s.lineActs i l.wire

/-- The filter of a line at its wire's present level (R132): no filter takes a difference at once, a filter starts
its timer; a wire at the taken level stops it. ESTOP has no filter. -/
def State.filterLine (i : Fin 8) (s : State) : State :=
  let l := s.bed.lines.get i
  if l.wire = l.taken then s.setLine i { l with timer := none }
  else if i.val = 0 ∨ l.filter = .none then s.takeLevel i
  else s.setLine i { l with timer := some l.filter.time }

/-- LINE_WIRE_CHANGE (R132). A wire already at the level has not changed. -/
def State.wireChange (i : Fin 8) (level : Bool) (s : State) : State :=
  let l := s.bed.lines.get i
  if l.wire = level then s else (s.setLine i { l with wire := level }).filterLine i

/-- FILTER_EXPIRY (R132); a stopped timer does not expire. -/
def State.filterExpires (i : Fin 8) (s : State) : State :=
  if (s.bed.lines.get i).timer.isSome then s.takeLevel i else s

/-- LINE_WIRE_CHANGE: a wire changes level; its filter timer starts or stops, or the change is taken at once
(R132 to R140). -/
def execLineWireChange (line : Fin 8) (level : Bool) (s : State) : Host.Outcome State Fault Refusal :=
  .next (s.begin.wireChange line level).close

/-- FILTER_EXPIRY: the wire's level becomes the taken level (R132 to R140). -/
def execFilterExpiry (line : Fin 8) (s : State) : Host.Outcome State Fault Refusal :=
  .next (s.begin.filterExpires line).close

end Sys2Proof.Machine
end

