-- ==== Sys2Proof/Machine/Params.lean ====
section
/-! DEFINITION. The parameters by code and index (R165): the value held, and what each owner makes of a SET_PARAM
(R24, R54, R73, R93, R122, R133, R143). -/

namespace Sys2Proof.Machine

/-- An owner's answer to a value: BAD_ARG outside the range, NO_CHANGE for the value held, else it is written and
the reply carries it (R54, R73, R93, R122, R165). -/
def writeRange (lo hi held : Nat) (value : Int) (write : Nat → State) (s : State) : Acted :=
  if value < lo ∨ hi < value then s.answer .badArg
  else if value = held then s.answer .noChange
  else (write value.toNat).doneWith (be32i value)

/-- The nest unit's answer to a layout parameter (R24): NEST_BUSY, BAD_ARG, LOCKED while a placement is held,
NO_CHANGE, else written. `clash` says that a MARK_PITCH would exceed the WINDOW_LENGTH or the other way round. -/
def writeLayout (lo hi held : Nat) (clash : Bool) (value : Int) (lp : LayoutParams) (s : State) : Acted :=
  if s.nestRunning then s.answer .nestBusy
  else if value < lo ∨ hi < value ∨ clash then s.answer .badArg
  else if s.store.panels.cells.any fun p => p.placement.isSome then s.answer .locked
  else if value = held then s.answer .noChange
  else (s.withNest { s.nest with params := lp }).doneWith (be32i value)

/-- The value a parameter holds; `none` for a code not in the table or an index outside its range (R165). -/
def State.paramValue (s : State) (code index : Byte) : Option Nat :=
  let np := s.nest.params
  let mp := s.motion.params
  if code.toNat < 0x30 then
    if index ≠ 0 then none
    else match code.toNat with
      | 0x01 => some np.mediaWidth
      | 0x02 => some np.marginSide
      | 0x03 => some np.lead
      | 0x04 => some np.markPitch
      | 0x05 => some np.windowLength
      | 0x06 => some np.gap
      | 0x10 => some s.plan.weedDistance
      | 0x11 => some s.plan.kissPasses
      | 0x12 => some s.plan.thruPasses
      | 0x18 => some s.marks.searchSize
      | 0x19 => some s.marks.geomTol
      | 0x1A => some s.marks.seamTol
      | 0x20 => some mp.kissPressure
      | 0x21 => some mp.thruPressure
      | 0x22 => some mp.kissSpeed
      | 0x23 => some mp.thruSpeed
      | 0x24 => some mp.travelSpeed
      | 0x25 => some mp.slipTol
      | 0x26 => some mp.feedGuardTime
      | 0x28 => some s.cycle.vacSettle
      | _ => none
  else match code.toNat with
    | 0x30 => if h : index.toNat < 4 then some (s.bed.vacSafe.get ⟨index.toNat, h⟩).code else none
    | 0x31 => if h : 0 < index.toNat ∧ index.toNat < 8 then
        some (s.bed.lines.get ⟨index.toNat, h.2⟩).filter.code else none
    | 0x32 => if h : index.toNat < 8 then some (bitAt 0 (s.bed.lines.get ⟨index.toNat, h⟩).riseEn) else none
    | 0x33 => if h : index.toNat < 8 then some (bitAt 0 (s.bed.lines.get ⟨index.toNat, h⟩).fallEn) else none
    | _ => none

/-- The filter of a code (R165). -/
def filterOf (n : Nat) : Filter := match n with
  | 0 => .none
  | 1 => .f2
  | 2 => .f8
  | _ => .f32

/-- A FILTER written (R133): the timer stops, and a wire that differs starts it afresh or, with NONE, is taken at
once. A line whose timer is not running keeps it so unless the wire differs. -/
def State.writeFilter (i : Fin 8) (f : Filter) (s : State) : State :=
  let l := s.bed.lines.get i
  (s.setLine i { l with filter := f, timer := none }).filterLine i

/-- The owner's answer to a SET_PARAM whose code and index are in the table. -/
def State.writeParam (code index : Byte) (v : Int) (s : State) : Acted :=
  let np := s.nest.params
  let mp := s.motion.params
  let n := v.toNat
  match code.toNat with
  | 0x01 => writeLayout 30000 162000 np.mediaWidth false v { np with mediaWidth := n } s
  | 0x02 => writeLayout 500 5000 np.marginSide false v { np with marginSide := n } s
  | 0x03 => writeLayout 1000 50000 np.lead false v { np with lead := n } s
  | 0x04 => writeLayout 25000 100000 np.markPitch (np.windowLength < n) v { np with markPitch := n } s
  | 0x05 => writeLayout 50000 250000 np.windowLength (n < np.markPitch) v { np with windowLength := n } s
  | 0x06 => writeLayout 0 5000 np.gap false v { np with gap := n } s
  | 0x10 => writeRange 200 3000 s.plan.weedDistance v (fun n => s.withPlan { s.plan with weedDistance := n }) s
  | 0x11 => writeRange 1 4 s.plan.kissPasses v (fun n => s.withPlan { s.plan with kissPasses := n }) s
  | 0x12 => writeRange 1 4 s.plan.thruPasses v (fun n => s.withPlan { s.plan with thruPasses := n }) s
  | 0x18 => writeRange 500 4000 s.marks.searchSize v (fun n => s.withMarks { s.marks with searchSize := n }) s
  | 0x19 => writeRange 10 500 s.marks.geomTol v (fun n => s.withMarks { s.marks with geomTol := n }) s
  | 0x1A => writeRange 5 500 s.marks.seamTol v (fun n => s.withMarks { s.marks with seamTol := n }) s
  | 0x20 => writeRange 20 600 mp.kissPressure v
      (fun n => s.withMotion { s.motion with params := { mp with kissPressure := n } }) s
  | 0x21 => writeRange 100 1500 mp.thruPressure v
      (fun n => s.withMotion { s.motion with params := { mp with thruPressure := n } }) s
  | 0x22 => writeRange 10 1000 mp.kissSpeed v
      (fun n => s.withMotion { s.motion with params := { mp with kissSpeed := n } }) s
  | 0x23 => writeRange 10 1000 mp.thruSpeed v
      (fun n => s.withMotion { s.motion with params := { mp with thruSpeed := n } }) s
  | 0x24 => writeRange 50 1500 mp.travelSpeed v
      (fun n => s.withMotion { s.motion with params := { mp with travelSpeed := n } }) s
  | 0x25 => writeRange 10 1000 mp.slipTol v
      (fun n => s.withMotion { s.motion with params := { mp with slipTol := n } }) s
  | 0x26 => writeRange 50 2000 mp.feedGuardTime v
      (fun n => s.withMotion { s.motion with params := { mp with feedGuardTime := n } }) s
  | 0x28 => writeRange 0 5000 s.cycle.vacSettle v (fun n => s.withCycle { s.cycle with vacSettle := n }) s
  | 0x30 => if h : index.toNat < 4 then
      writeRange 0 1 (s.bed.vacSafe.get ⟨index.toNat, h⟩).code v
        (fun n => s.withBed { s.bed with
          vacSafe := s.bed.vacSafe.set ⟨index.toNat, h⟩ (if n = 0 then .hold else .release) }) s
    else s.answer .badArg
  | 0x31 => if h : 0 < index.toNat ∧ index.toNat < 8 then
      writeRange 0 3 (s.bed.lines.get ⟨index.toNat, h.2⟩).filter.code v
        (fun n => s.writeFilter ⟨index.toNat, h.2⟩ (filterOf n)) s
    else s.answer .badArg
  | 0x32 => if h : index.toNat < 8 then
      let l := s.bed.lines.get ⟨index.toNat, h⟩
      writeRange 0 1 (bitAt 0 l.riseEn) v (fun n => s.setLine ⟨index.toNat, h⟩ { l with riseEn := n = 1 }) s
    else s.answer .badArg
  | 0x33 => if h : index.toNat < 8 then
      let l := s.bed.lines.get ⟨index.toNat, h⟩
      writeRange 0 1 (bitAt 0 l.fallEn) v (fun n => s.setLine ⟨index.toNat, h⟩ { l with fallEn := n = 1 }) s
    else s.answer .badArg
  | _ => s.answer .badArg

/-- SET_PARAM (R165): BAD_ARG for a code or index outside the table, else the owner answers. -/
def actSetParam (code index : Byte) (value : Word) (s : State) : Acted :=
  match s.paramValue code index with
  | none => s.answer .badArg
  | some _ => s.writeParam code index value.toInt

/-- GET_PARAM (R165). -/
def actGetParam (code index : Byte) (s : State) : Acted :=
  match s.paramValue code index with
  | none => s.answer .badArg
  | some v => s.doneWith (be32 v)

end Sys2Proof.Machine
end

