-- ==== Sys2Proof/Machine/Link.lean ====
section
/-! DEFINITION. The link port's line side: receiver and inbound queue (R155, R156), outbound records and the rate
(R153, R158), the watch timer (R168); and how a request row is delivered (R157). -/

namespace Sys2Proof.Machine

/-! ### The receiver and the inbound queue -/

/-- A record completes: it enters the inbound queue, with the overrun mark when records have been discarded since the
last one, or is discarded and counted (R156). -/
def LinkPort.enter (body : List Byte) (damage : Option Damage) (l : LinkPort) : LinkPort :=
  if l.inbound.length < Config.inboundPlaces then
    { l with
      inbound := l.inbound ++ [⟨body, damage, if l.overrun = 0 then none else some l.overrun⟩]
      overrun := 0 }
  else { l with overrun := min (l.overrun + 1) 255 }

/-- The body bytes received of a frame whose bytes after START are `bytes` (R155). -/
def bodyReceived (bytes : List Byte) : List Byte := match bytes with
  | [] => []
  | len :: rest => rest.take len.toNat

/-- The frame in progress ends as a record with a damage mark (R155). -/
def LinkPort.endFrame (damage : Option Damage) (bytes : List Byte) (l : LinkPort) : LinkPort :=
  { l with receiver := .hunting }.enter (bodyReceived bytes) damage

/-- How a frame whose last CRC byte has come is marked: FRAMING for a stop-bit error in it, CHECK for another CRC
than the one computed, else nothing (R155). -/
def frameMark (bytes : List Byte) (stopError : Bool) : Option Damage :=
  if stopError then some .framing
  else match bytes with
    | [] => none
    | len :: rest =>
      let crc := crc16 (len :: rest.take len.toNat)
      if rest.drop len.toNat = [crc.extractLsb' 8 8, crc.extractLsb' 0 8] then none else some .check

/-- A character arrives (R155). -/
def LinkPort.receive (b : Byte) (stopError : Bool) (l : LinkPort) : LinkPort := match l.receiver with
  | .hunting => if b = 0xA5 ∧ stopError = false then { l with receiver := .inFrame [] false } else l
  | .inFrame bytes err =>
    let bytes := bytes ++ [b]
    let err := err || stopError
    match bytes with
    | [] => l
    | len :: rest =>
      if len.toNat < 4 ∨ 244 < len.toNat then l.endFrame (some .framing) bytes
      else if rest.length = len.toNat + 2 then l.endFrame (frameMark bytes err) bytes
      else { l with receiver := .inFrame bytes err }

/-- A gap or short break ends a frame with its mark, and has no effect while hunting (R155). -/
def LinkPort.breakFrame (damage : Damage) (l : LinkPort) : LinkPort := match l.receiver with
  | .hunting => l
  | .inFrame bytes _ => l.endFrame (some damage) bytes

/-- LINK_BYTE_RECEIVED (R155, R156). -/
def execLinkByteReceived (b : Byte) (stopError : Bool) (s : State) : Host.Outcome State Fault Refusal :=
  .next ((s.begin.withLink (s.begin.link.receive b stopError)).close)

/-- FRAME_GAP_EXPIRY: the frame ends TRUNCATED (R155). -/
def execFrameGapExpiry (s : State) : Host.Outcome State Fault Refusal :=
  .next ((s.begin.withLink (s.begin.link.breakFrame .truncated)).close)

/-- SHORT_BREAK: the frame ends FRAMING (R155). -/
def execShortBreak (s : State) : Host.Outcome State Fault Refusal :=
  .next ((s.begin.withLink (s.begin.link.breakFrame .framing)).close)

/-- LINK_LINE_RETURN_HIGH: the next 10 ms of low line is a link clear again (R160). -/
def execLinkLineReturnHigh (s : State) : Host.Outcome State Fault Refusal :=
  .next ((s.begin.withLink { s.begin.link with armed := true }).close)

/-! ### The outbound side -/

/-- The last byte of the head record has been sent: its place is free, and a link rate it brings takes effect
(R153, R158). -/
def LinkPort.sent (l : LinkPort) : LinkPort := match l.outbound with
  | [] => l
  | r :: rest => { l with outbound := rest, rate := r.rate.getD l.rate }

/-- OUTBOUND_RECORD_SENT (R153, R158). -/
def execOutboundRecordSent (s : State) : Host.Outcome State Fault Refusal :=
  .next ((s.begin.withLink s.begin.link.sent).close)

/-- A period of the watch ends: one WATCH notice under its own room rule, and the timer starts again (R158, R168). -/
def State.watchExpires (s : State) : State :=
  if s.link.watchTimer.isSome then
    s.withLink { s.link.queueWatch (watchNotice s) with watchTimer := some s.link.watch.period }
  else s

/-- WATCH_EXPIRY (R168). -/
def execWatchExpiry (s : State) : Host.Outcome State Fault Refusal := .next s.begin.watchExpires.close

/-! ### A request row -/

/-- The request waits: its record enters the inbound queue (R156), since the outbound queue has no free place for
its reply (R157, log 2). -/
def State.waits (i : Instr) (s : State) : State := match requestBody i with
  | some body => s.withLink (s.link.enter body none)
  | none => s

/-- BAD_LENGTH for a payload that the kind does not allow, else the delivery (R157 steps 4 and 5, R162). -/
def State.deliverChecked (i : Instr) (run : State → State) (s : State) : State :=
  if i.wellFormed then run s
  else match requestFields i with
    | some (kind, tag, _) => s.queueReply kind tag .badLength [] none
    | none => s

/-- A request row (R157 step 5): the record the link port has taken is delivered, its reply queued, the notices of its
action behind it. With no free outbound place the record is not taken and waits (log 2). -/
def request (i : Instr) (run : State → State) (s : State) : Host.Outcome State Fault Refusal :=
  if s.link.outbound.length < Config.outboundPlaces then .next (s.begin.deliverChecked i run).close
  else .next (s.begin.waits i)

end Sys2Proof.Machine
end

