-- ==== Sys2Proof/Machine/Panels.lean ====
section
/-! DEFINITION. The panel store's requests: OPEN_OUTLINE, POINTS, CLOSE_OUTLINE, ABANDON_OUTLINE, SET_PANEL,
DELETE_PANEL (R6, R7, R10 to R18). -/

namespace Sys2Proof.Machine

/-! ### Opening (R11, R12) -/

/-- The whole outline is reserved: blocks from the head of the free list become the chain, the slot goes to LOADING,
the loader opens (R12). -/
def PanelStore.openSlot (st : PanelStore) (i : Slot) (n : Nat) (g : Settings) : PanelStore :=
  let need := ceilDiv n Config.blockPlaces
  { st with
    free := st.free.drop need
    loader := some ⟨i, n, 0, none⟩
    panels := st.panels.set i
      { state := .loading, lock := .free, label := g.label, tool := g.tool, weed := g.weed, rotateOk := g.rotateOk
        order := g.order, passes := g.passes, bleed := g.bleed, vertexCount := n, bbox := none, placement := none
        outcome := .none, windowsLeft := none, chain := st.free.take need } }

/-- OPEN_OUTLINE's checks and effect (R11, R12). -/
def actOpenOutline (slot : Byte) (n bleed : Half) (tool flags order passes : Byte) (label : List Byte)
    (s : State) : Acted :=
  if s.nestRunning then s.answer .nestBusy
  else if s.outlineOpen then s.answer .outlineOpen
  else match slotOf slot, settingsOf bleed tool flags order passes label with
    | some i, some g =>
      let need := ceilDiv n.toNat Config.blockPlaces
      if n.toNat < 3 ∨ 4096 < n.toNat then s.answer .badArg
      else if (s.panel i).state ≠ .empty then s.answer .refusedState
      else if s.store.free.length < need then
        { s.answer .noSpace with data := be16 need ++ be16 s.store.free.length }
      else (s.withStore (s.store.openSlot i n.toNat g)).doneWith (be16 need ++ be16 (s.store.free.length - need))
    | _, _ => s.answer .badArg

/-! ### The stream (R13, R14) -/

/-- The close report: kind, index, received count (R163). -/
def closeReport (kind index received : Nat) : List Byte := u8 kind :: be16 index ++ be16 received

/-- The code of a latched error as a close report kind (R163). -/
def LoadError.code : LoadError → Nat
  | .order => 1
  | .over => 2
  | .range => 3

/-- The vertices of a record stored from outline vertex `first` on (R9, R13). -/
def storeFrom (chain : List Nat) : Nat → List RawVertex → List (Nat × Vertex) → List (Nat × Vertex)
  | _, [], c => c
  | first, w :: ws, c =>
    storeFrom chain (first + 1) ws (Contour.write (placeOf chain first) ⟨w.u.toNat, w.v.toNat⟩ c)

/-- The first of the loader's tests that a record fails (R13). -/
def streamError (o : OpenOutline) (first : Nat) (vs : List RawVertex) : Option LoadError :=
  if first ≠ o.received then some .order
  else if o.expected < o.received + vs.length then some .over
  else if vs.any fun w => Config.maxCoordinate < w.u.toNat || Config.maxCoordinate < w.v.toNat then some .range
  else none

/-- A POINTS record delivered to an open loader (R13). -/
def PanelStore.stream (st : PanelStore) (o : OpenOutline) (first : Nat) (vs : List RawVertex) : PanelStore :=
  if o.error.isSome then st
  else match streamError o first vs with
    | some e => { st with loader := some { o with error := some (e, first) } }
    | none =>
      { st with
        loader := some { o with received := o.received + vs.length }
        contour := storeFrom (st.panels.get o.slot).chain first vs st.contour }

/-- POINTS: no reply while an outline is open; SEQUENCE with NOT_OPEN otherwise (R13, R14). -/
def runPoints (tag : Byte) (first : Half) (vertices : List RawVertex) (s : State) : State :=
  match s.store.loader with
  | some o => s.withStore (s.store.stream o first.toNat vertices)
  | none => s.queueReply 0x11 tag .sequence (closeReport 7 0 0) none

/-! ### Closing (R15, R16, R17) -/

/-- The least i for which vertex i equals vertex (i + 1) mod N (R15). -/
def degenerateAt (vs : List Vertex) : Option Nat :=
  (List.range vs.length).find? fun i => vs[i]? = vs[(i + 1) % vs.length]?

/-- The bbox of vertices (R4). -/
def bboxOf (vs : List Vertex) : BBox :=
  let least (f : Vertex → Nat) : Nat := match vs with
    | [] => 0
    | a :: l => l.foldl (fun m w => min m (f w)) (f a)
  let greatest (f : Vertex → Nat) : Nat := maxOf (vs.map f)
  ⟨least (·.u), least (·.v), greatest (·.u) - least (·.u), greatest (·.v) - least (·.v)⟩

/-- A close that fails: the slot made EMPTY, the report, the free count after the return (R15, R163). -/
def failClose (o : OpenOutline) (status : Status) (kind index : Nat) (s : State) : Acted :=
  let s := s.withStore (s.store.abandon o)
  ⟨s, status, closeReport kind index o.received ++ be16 s.store.free.length, none⟩

/-- CLOSE_OUTLINE's checks and effect (R15, R16). The data of its OK are log 9. -/
def actCloseOutline (s : State) : Acted :=
  match s.store.loader with
  | none => { s.answer .sequence with data := closeReport 7 0 0 }
  | some o =>
    let p := s.panel o.slot
    let vs := s.store.vertices p.chain o.expected
    let box := bboxOf vs
    match o.error with
    | some (e, index) => failClose o .sequence e.code index s
    | none =>
      if o.received ≠ o.expected then failClose o .sequence 4 o.received s
      else match degenerateAt vs with
        | some i => failClose o .badArg 5 i s
        | none =>
          if box.width = 0 ∨ box.height = 0 then failClose o .badArg 6 0 s
          else
            let p := { p with state := .loaded, lock := .free, vertexCount := o.expected, bbox := some box }
            let s := s.withStore { s.store.setPanel o.slot p with loader := none }
            s.doneWith ([0] ++ be32 box.minU ++ be32 box.minV ++ be32 box.width ++ be32 box.height ++
              be32 p.ew0 ++ be32 p.eh0 ++ be16 s.store.free.length)

/-- ABANDON_OUTLINE (R17). -/
def actAbandonOutline (s : State) : Acted :=
  match s.store.loader with
  | none => s.answer .noChange
  | some o =>
    let t := s.withStore (s.store.abandon o)
    t.doneWith (be16 (s.panel o.slot).chain.length ++ be16 t.store.free.length)

/-! ### Settings and removal (R6, R7) -/

/-- The settings a panel holds (R6). -/
def Panel.settings (p : Panel) : Settings := ⟨p.label, p.tool, p.weed, p.rotateOk, p.order, p.passes, p.bleed⟩

/-- The panel with other settings (R6). -/
def Panel.withSettings (p : Panel) (g : Settings) : Panel :=
  { p with
    label := g.label
    tool := g.tool
    weed := g.weed
    rotateOk := g.rotateOk
    order := g.order
    passes := g.passes
    bleed := g.bleed }

/-- SET_PANEL's checks and effect (R6). -/
def actSetPanel (slot : Byte) (bleed : Half) (tool flags order passes : Byte) (label : List Byte) (s : State) :
    Acted :=
  if s.nestRunning then s.answer .nestBusy
  else match slotOf slot, settingsOf bleed tool flags order passes label with
    | some i, some g =>
      let p := s.panel i
      if p.state = .empty ∨ p.state = .loading then s.answer .refusedState
      else if p.lock = .committed then s.answer .locked
      else if p.state = .placed ∧ (g.bleed ≠ p.bleed ∨ g.rotateOk ≠ p.rotateOk) then s.answer .refusedState
      else if g = p.settings then s.answer .noChange
      else (s.setPanel i (p.withSettings g)).doneWith (panelEntry i.val (p.withSettings g))
    | _, _ => s.answer .badArg

/-- DELETE_PANEL's checks and effect (R7); the rows are recomputed when the panel was PLACED. -/
def actDeletePanel (slot : Byte) (s : State) : Acted :=
  if s.nestRunning then s.answer .nestBusy
  else match slotOf slot with
    | none => s.answer .badArg
    | some i =>
      let p := s.panel i
      if p.state = .empty ∨ p.state = .loading then s.answer .refusedState
      else if p.lock = .committed then s.answer .locked
      else
        let t := s.withStore (s.store.emptySlot i)
        let data := be16 p.chain.length ++ be16 t.store.free.length
        (if p.state = .placed then t.recomputeRows else t).doneWith data

/-! ### The commands -/

/-- OPEN_OUTLINE delivered. -/
def runOpenOutline (tag slot : Byte) (n bleed : Half) (tool flags order passes : Byte) (label : List Byte) :
    State → State :=
  serve 0x10 tag (actOpenOutline slot n bleed tool flags order passes label)

/-- CLOSE_OUTLINE delivered. -/
def runCloseOutline (tag : Byte) : State → State := serve 0x12 tag actCloseOutline

/-- ABANDON_OUTLINE delivered. -/
def runAbandonOutline (tag : Byte) : State → State := serve 0x13 tag actAbandonOutline

/-- SET_PANEL delivered. -/
def runSetPanel (tag slot : Byte) (bleed : Half) (tool flags order passes : Byte) (label : List Byte) :
    State → State :=
  serve 0x14 tag (actSetPanel slot bleed tool flags order passes label)

/-- DELETE_PANEL delivered. -/
def runDeletePanel (tag slot : Byte) : State → State := serve 0x15 tag (actDeletePanel slot)

/-- OPEN_OUTLINE (R11, R12). -/
def execOpenOutline (tag slot : Byte) (n bleed : Half) (tool flags order passes : Byte) (label : List Byte)
    (s : State) : Host.Outcome State Fault Refusal :=
  request (.openOutline tag slot n bleed tool flags order passes label)
    (runOpenOutline tag slot n bleed tool flags order passes label) s

/-- POINTS (R13, R14). -/
def execPoints (tag : Byte) (first : Half) (vertices : List RawVertex) (s : State) :
    Host.Outcome State Fault Refusal :=
  request (.points tag first vertices) (runPoints tag first vertices) s

/-- CLOSE_OUTLINE (R15, R16). -/
def execCloseOutline (tag : Byte) (s : State) : Host.Outcome State Fault Refusal :=
  request (.closeOutline tag) (runCloseOutline tag) s

/-- ABANDON_OUTLINE (R17). -/
def execAbandonOutline (tag : Byte) (s : State) : Host.Outcome State Fault Refusal :=
  request (.abandonOutline tag) (runAbandonOutline tag) s

/-- SET_PANEL (R6). -/
def execSetPanel (tag slot : Byte) (bleed : Half) (tool flags order passes : Byte) (label : List Byte)
    (s : State) : Host.Outcome State Fault Refusal :=
  request (.setPanel tag slot bleed tool flags order passes label)
    (runSetPanel tag slot bleed tool flags order passes label) s

/-- DELETE_PANEL (R7). -/
def execDeletePanel (tag slot : Byte) (s : State) : Host.Outcome State Fault Refusal :=
  request (.deletePanel tag slot) (runDeletePanel tag slot) s

end Sys2Proof.Machine
end

