-- ==== Sys2Proof/Machine/Nest.lean ====
section
/-! DEFINITION. The nest unit: the skyline (R26, R27), the nest run (R28 to R37), placing by hand (R40 to R43), and
committing (R44 to R46). -/

namespace Sys2Proof.Machine

/-! ### The skyline (R27) -/

/-- A segment cut at a and b, its part within [a, b) given the height `f` of its own. -/
def Seg.change (a b : Nat) (f : Nat → Nat) (g : Seg) : List Seg :=
  let e := g.x + g.width
  let lo := max a g.x
  let hi := min b e
  (if g.x < a then [⟨g.x, min a e - g.x, g.height⟩] else []) ++
  (if lo < hi then [⟨lo, hi - lo, f g.height⟩] else []) ++
  (if b < e then [⟨max b g.x, e - max b g.x, g.height⟩] else [])

/-- A segment put before a list in which no equal neighbours remain, merged with an equal first one. -/
def mergeSeg (g : Seg) : List Seg → List Seg
  | [] => [g]
  | h :: t => if g.height = h.height then ⟨g.x, g.width + h.width, g.height⟩ :: t else g :: h :: t

/-- Neighbours of equal height merged until none remain (R27). -/
def mergeSegs (l : List Seg) : List Seg := l.foldr mergeSeg []

/-- The skyline changed over [a, b) (R27). -/
def changeSkyline (a b : Nat) (f : Nat → Nat) (l : List Seg) : List Seg := mergeSegs (l.flatMap (Seg.change a b f))

/-- Raising a range to a height (R27). -/
def raiseSkyline (a b h : Nat) (l : List Seg) : List Seg := changeSkyline a b (fun g => max g h) l

/-- Setting a range to a height (R27). -/
def setSkyline (a b h : Nat) (l : List Seg) : List Seg := changeSkyline a b (fun _ => h) l

/-- The greatest height of the segments that meet [a, b) (R32). -/
def heightOver (l : List Seg) (a b : Nat) : Nat :=
  maxOf ((l.filter fun g => rangesMeet g.x (g.x + g.width) a b).map (·.height))

/-! ### The nest run (R29 to R36) -/

/-- The panel belongs to the run set (R30). -/
def Panel.inRunSet (p : Panel) : Bool := p.lock = .free && (p.state = .loaded || p.state = .placed)

/-- The panel belongs to the fixed set (R30). -/
def Panel.isFixed (p : Panel) : Bool := p.lock = .pinned || p.lock = .committed

/-- The order of the draft (R31). -/
def State.draftBefore (s : State) (ordered : Bool) (a b : Slot) : Bool :=
  let p := s.panel a
  let q := s.panel b
  if ordered then p.order < q.order || (p.order = q.order && a.val < b.val)
  else q.ew0 * q.eh0 < p.ew0 * p.eh0 || (p.ew0 * p.eh0 = q.ew0 * q.eh0 && a.val < b.val)

/-- The initial envelope raised by one fixed panel (R30). -/
def raiseBy (lp : LayoutParams) (l : List Seg) (p : Panel) : List Seg := match p.placement with
  | some pl =>
    raiseSkyline pl.x (min (pl.x + p.ew pl.rotation + lp.gap) lp.xr) (pl.y + p.eh pl.rotation + lp.gap) l
  | none => l

/-- The initial envelope (R30). -/
def State.initialEnvelope (s : State) : List Seg :=
  let lp := s.nest.params
  (s.store.panels.cells.filter Panel.isFixed).foldl (raiseBy lp) [⟨lp.xl, lp.xr - lp.xl, lp.lead⟩]

/-- The start of a run (R30). -/
def State.startNest (ordered : Bool) (s : State) : State :=
  let slots := (List.finRange 96).filter fun i => (s.panel i).inRunSet
  let draft := (sortBy (s.draftBefore ordered) slots).map fun i => (⟨i, .pending⟩ : DraftEntry)
  s.withNest { s.nest with skyline := s.initialEnvelope, run := some ⟨ordered, draft, 0⟩ }

/-- A candidate position with its top (R32). -/
structure Candidate where
  top : Nat
  place : Placement
  footW : Nat
  deriving DecidableEq, Repr

/-- The candidate of a rotation at a segment's start, when it fits (R32). -/
def candidateAt (lp : LayoutParams) (l : List Seg) (p : Panel) (r : Rotation) (g : Seg) : Option Candidate :=
  let fw := p.ew r + lp.gap
  let y := heightOver l g.x (min (g.x + fw) lp.xr)
  if g.x + p.ew r ≤ lp.xr ∧ y + p.eh r ≤ lp.ymax then some ⟨y + p.eh r + lp.gap, ⟨g.x, y, r⟩, fw⟩ else none

/-- The rotations allowed to a panel (R32). -/
def Panel.rotations (p : Panel) : List Rotation := if p.rotateOk then [.r0, .r90] else [.r0]

/-- The candidates that fit, rotation 0 before rotation 90 (R32). -/
def candidates (lp : LayoutParams) (l : List Seg) (p : Panel) : List Candidate :=
  p.rotations.flatMap fun r => l.filterMap (candidateAt lp l p r)

/-- The choice of R33: lowest top, then lowest x, then rotation 0. -/
def Candidate.better (a b : Candidate) : Bool :=
  a.top < b.top || (a.top = b.top && (a.place.x < b.place.x ||
    (a.place.x = b.place.x && a.place.rotation = .r0 && b.place.rotation = .r90)))

/-- The best of the candidates. -/
def bestCandidate : List Candidate → Option Candidate
  | [] => none
  | c :: l => some (l.foldl (fun m d => if d.better m then d else m) c)

/-- Why a panel without a fitting candidate is not placed (R34). -/
def whyUnplaced (lp : LayoutParams) (p : Panel) : DraftOutcome :=
  if p.rotations.all fun r => lp.xr - lp.xl < p.ew r then .unfit else .noRoom

/-- The outcome of one placing and the skyline it leaves (R32 to R34). -/
def placeOne (lp : LayoutParams) (l : List Seg) (p : Panel) : DraftOutcome × List Seg :=
  match bestCandidate (candidates lp l p) with
  | some c => (.placed c.place, setSkyline c.place.x (min (c.place.x + c.footW) lp.xr) c.top l)
  | none => (whyUnplaced lp p, l)

/-- A run-set panel at the completion (R35). -/
def Panel.takeDraft (p : Panel) : DraftOutcome → Panel
  | .placed pl => { p with state := .placed, placement := some pl, outcome := .placed }
  | .unfit => { p with state := .loaded, placement := none, outcome := .unfit }
  | .noRoom => { p with state := .loaded, placement := none, outcome := .noRoom }
  | .pending => p

/-- A slot's record at the completion: its draft entry's outcome, FIXED for a fixed panel (R35). -/
def Panel.atNestDone (draft : List DraftEntry) (i : Slot) (p : Panel) : Panel :=
  match draft.find? fun d => d.slot = i with
  | some d => p.takeDraft d.outcome
  | none => if p.isFixed then { p with outcome := .fixed } else p

/-- The number of draft entries with a kind of outcome (R36). -/
def countOutcomes (draft : List DraftEntry) (which : DraftOutcome → Bool) : Nat :=
  (draft.filter fun d => which d.outcome).length

/-- PLACED with some placement. -/
def DraftOutcome.isPlaced : DraftOutcome → Bool
  | .placed _ => true
  | .pending => false
  | .unfit => false
  | .noRoom => false

/-- The completion of a run (R35, R36): the draft written, rows recomputed, NEST_DONE queued, IDLE. -/
def State.nestCompletes (run : NestRun) (s : State) : State :=
  let s := s.withStore { s.store with panels := s.store.panels.map (Panel.atNestDone run.draft) }
  let s := (s.withNest { s.nest with run := none }).recomputeRows
  s.emit (nestDoneNotice false (countOutcomes run.draft DraftOutcome.isPlaced)
    (countOutcomes run.draft (· = .unfit)) (countOutcomes run.draft (· = .noRoom))
    (layoutEnd s.store.panels.cells))

/-- A run with no entry PENDING completes (R35). -/
def State.settleNest (s : State) : State := match s.nest.run with
  | some run => if run.draft.any fun d => d.outcome = .pending then s else s.nestCompletes run
  | none => s

/-- One step of the run: the next panel of the draft is placed or not (R31 to R34). -/
def State.nestStep (s : State) : State := match s.nest.run with
  | none => s
  | some run => match run.draft[run.next]? with
    | none => s
    | some d =>
      let (outcome, skyline) := placeOne s.nest.params s.nest.skyline (s.panel d.slot)
      s.withNest { s.nest with
        skyline := skyline
        run := some { run with draft := run.draft.set run.next ⟨d.slot, outcome⟩, next := run.next + 1 } }

/-- NEST_STEP (R31 to R36). -/
def execNestStep (s : State) : Host.Outcome State Fault Refusal := .next s.begin.nestStep.settleNest.close

/-- NEST's checks and start (R29, R30). -/
def actNest (flags : Byte) (s : State) : Acted :=
  if s.nestRunning then s.answer .nestBusy
  else if s.outlineOpen then s.answer .outlineOpen
  else match onOffOf flags with
    | none => s.answer .badArg
    | some ordered => { (s.startNest ordered).done with status := .accepted }

/-- The run in flight is given up without writing its draft (R37, R38). -/
def State.dropNest (s : State) : State := s.withNest { s.nest with skyline := [], run := none }

/-- NEST_ABORT (R37). -/
def actNestAbort (s : State) : Acted :=
  if s.nestRunning then (s.dropNest.emit (nestDoneNotice true 0 0 0 0)).done else s.answer .noChange

/-! ### Placing by hand (R40 to R43) -/

/-- Some other placed panel's footprint meets the footprint given (R40 check 8). -/
def State.overlaps (s : State) (i : Slot) (pl : Placement) : Bool :=
  (List.finRange 96).any fun j => j ≠ i && match (s.panel j).placement with
    | some q => footprintsMeet s.nest.params (s.panel i) pl (s.panel j) q
    | none => false

/-- PLACE's checks and effect (R40). -/
def actPlace (slot rotation : Byte) (x y : Word) (s : State) : Acted :=
  if s.nestRunning then s.answer .nestBusy
  else if s.outlineOpen then s.answer .outlineOpen
  else match slotOf slot, rotationOf rotation with
    | some i, some r =>
      let p := s.panel i
      let pl : Placement := ⟨x.toNat, y.toNat, r⟩
      if p.lock = .committed then s.answer .locked
      else if p.state ≠ .loaded ∧ p.state ≠ .placed then s.answer .refusedState
      else if r = .r90 ∧ p.rotateOk = false then s.answer .badArg
      else if !fitsUsable s.nest.params p pl then s.answer .doesNotFit
      else if s.overlaps i pl then s.answer .overlap
      else if p.state = .placed ∧ p.lock = .pinned ∧ p.placement = some pl then s.answer .noChange
      else
        let t := (s.setPanel i { p with state := .placed, lock := .pinned, placement := some pl, outcome := .none
          }).recomputeRows
        t.doneWith (be32 pl.x ++ be32 pl.y ++ [u8 r.code] ++ be32 (p.ew r) ++ be32 (p.eh r) ++ [u8 t.rowCount])
    | _, _ => s.answer .badArg

/-- UNPLACE's checks and effect (R41). -/
def actUnplace (slot : Byte) (s : State) : Acted :=
  if s.nestRunning then s.answer .nestBusy
  else if s.outlineOpen then s.answer .outlineOpen
  else match slotOf slot with
    | none => s.answer .badArg
    | some i =>
      let p := s.panel i
      if p.lock = .committed then s.answer .locked
      else if p.state = .loaded then s.answer .noChange
      else if p.state = .empty ∨ p.state = .loading then s.answer .refusedState
      else
        let t := (s.setPanel i { p with state := .loaded, lock := .free, placement := none, outcome := .none
          }).recomputeRows
        t.doneWith [u8 t.rowCount]

/-- PIN's checks and effect (R42). -/
def actPin (slot : Byte) (s : State) : Acted :=
  if s.nestRunning then s.answer .nestBusy
  else if s.outlineOpen then s.answer .outlineOpen
  else match slotOf slot with
    | none => s.answer .badArg
    | some i =>
      let p := s.panel i
      if p.lock = .committed then s.answer .locked
      else if p.state ≠ .placed then s.answer .refusedState
      else if p.lock = .pinned then s.answer .noChange
      else (s.setPanel i { p with lock := .pinned }).done

/-- UNPIN's checks and effect (R43). -/
def actUnpin (slot : Byte) (s : State) : Acted :=
  if s.nestRunning then s.answer .nestBusy
  else if s.outlineOpen then s.answer .outlineOpen
  else match slotOf slot with
    | none => s.answer .badArg
    | some i =>
      let p := s.panel i
      if p.lock = .committed then s.answer .locked
      else if p.state = .empty ∨ p.state = .loading then s.answer .refusedState
      else if p.lock = .free then s.answer .noChange
      else (s.setPanel i { p with lock := .free }).done

/-! ### Committing (R44 to R46) -/

/-- The named set of a COMMIT: every PLACED panel not yet COMMITTED in ALL mode (0), the slots of a list of 1 to 96
in list mode (1); `none` is BAD_ARG (R45 check 3). -/
def State.namedSet (s : State) (mode : Byte) (slots : List Byte) : Option (List Slot) :=
  if mode = 0 then
    some ((List.finRange 96).filter fun i => (s.panel i).state = .placed && (s.panel i).lock ≠ .committed)
  else if mode = 1 ∧ 1 ≤ slots.length ∧ slots.length ≤ 96 ∧ slots.all (fun b => (slotOf b).isSome) then
    some ((List.finRange 96).filter fun i => slots.any fun b => slotOf b = some i)
  else none

/-- COMMIT's checks and effect, all or none (R45). -/
def actCommit (mode : Byte) (slots : List Byte) (s : State) : Acted :=
  if s.nestRunning then s.answer .nestBusy
  else if s.outlineOpen then s.answer .outlineOpen
  else match s.namedSet mode slots with
    | none => s.answer .badArg
    | some named =>
      let fresh := named.filter fun i => (s.panel i).lock ≠ .committed
      if named.any fun i => (s.panel i).state ≠ .placed then s.answer .refusedState
      else if fresh.isEmpty then s.answer .noChange
      else if fresh.any fun i => s.reachesBuilt (s.panel i) then s.answer .windowPassed
      else
        (s.withStore { s.store with
          panels := s.store.panels.map fun i p => if named.contains i then { p with lock := .committed } else p
          }).doneWith [u8 fresh.length]

/-- UNCOMMIT's checks and effect (R46). -/
def actUncommit (slot : Byte) (s : State) : Acted :=
  if s.nestRunning then s.answer .nestBusy
  else if s.outlineOpen then s.answer .outlineOpen
  else match slotOf slot with
    | none => s.answer .badArg
    | some i =>
      let p := s.panel i
      if p.state = .empty ∨ p.state = .loading then s.answer .refusedState
      else if p.lock ≠ .committed then s.answer .noChange
      else if !s.keyOn then s.answer .locked
      else if p.state ≠ .placed then s.answer .refusedState
      else if s.reachesBuilt p then s.answer .windowPassed
      else (s.setPanel i { p with lock := .pinned }).done

/-! ### The commands -/

/-- NEST delivered: a run with an empty run set completes behind its reply (R29). -/
def runNest (tag flags : Byte) (s : State) : State := (serve 0x18 tag (actNest flags) s).settleNest

/-- NEST_ABORT delivered. -/
def runNestAbort (tag : Byte) : State → State := serve 0x19 tag actNestAbort

/-- PLACE delivered. -/
def runPlace (tag slot rotation : Byte) (x y : Word) : State → State := serve 0x1A tag (actPlace slot rotation x y)

/-- UNPLACE delivered. -/
def runUnplace (tag slot : Byte) : State → State := serve 0x1B tag (actUnplace slot)

/-- PIN delivered. -/
def runPin (tag slot : Byte) : State → State := serve 0x1C tag (actPin slot)

/-- UNPIN delivered. -/
def runUnpin (tag slot : Byte) : State → State := serve 0x1D tag (actUnpin slot)

/-- COMMIT delivered. -/
def runCommit (tag mode : Byte) (slots : List Byte) : State → State := serve 0x1E tag (actCommit mode slots)

/-- UNCOMMIT delivered. -/
def runUncommit (tag slot : Byte) : State → State := serve 0x1F tag (actUncommit slot)

/-- NEST (R29 to R31). -/
def execNest (tag flags : Byte) (s : State) : Host.Outcome State Fault Refusal :=
  request (.nest tag flags) (runNest tag flags) s

/-- NEST_ABORT (R37). -/
def execNestAbort (tag : Byte) (s : State) : Host.Outcome State Fault Refusal :=
  request (.nestAbort tag) (runNestAbort tag) s

/-- PLACE (R40). -/
def execPlace (tag slot rotation : Byte) (x y : Word) (s : State) : Host.Outcome State Fault Refusal :=
  request (.place tag slot rotation x y) (runPlace tag slot rotation x y) s

/-- UNPLACE (R41). -/
def execUnplace (tag slot : Byte) (s : State) : Host.Outcome State Fault Refusal :=
  request (.unplace tag slot) (runUnplace tag slot) s

/-- PIN (R42). -/
def execPin (tag slot : Byte) (s : State) : Host.Outcome State Fault Refusal :=
  request (.pin tag slot) (runPin tag slot) s

/-- UNPIN (R43). -/
def execUnpin (tag slot : Byte) (s : State) : Host.Outcome State Fault Refusal :=
  request (.unpin tag slot) (runUnpin tag slot) s

/-- COMMIT (R45). -/
def execCommit (tag mode : Byte) (slots : List Byte) (s : State) : Host.Outcome State Fault Refusal :=
  request (.commit tag mode slots) (runCommit tag mode slots) s

/-- UNCOMMIT (R46). -/
def execUncommit (tag slot : Byte) (s : State) : Host.Outcome State Fault Refusal :=
  request (.uncommit tag slot) (runUncommit tag slot) s

end Sys2Proof.Machine
end

