-- ==== Sys2Proof/Machine/Cycle.lean ====
section
/-! DEFINITION. The cycle controller's requests: breakpoints (R106), clearing a fault (R149, R150), homing, starting,
suspending, resuming, stopping and skipping (R94, R95, R101, R107 to R112), test cuts, jogs and feeds (R113 to R115),
JOB_CLEAR (R116); and the settle timer's expiry (R97). -/

namespace Sys2Proof.Machine

/-! ### Breakpoints (R106) -/

/-- SET_BREAK's checks and effect (R106): index 4 is the step flag, carried in the fourth byte; the kind and the
argument byte are not read with it (log 36). -/
def actSetBreak (index kind argument action : Byte) (s : State) : Acted :=
  if h : index.toNat < 4 then
    match breakKindOf kind argument, breakActionOf action with
    | some k, some a =>
      if s.cycle.breakpoints.get ⟨index.toNat, h⟩ = ⟨k, a⟩ then s.answer .noChange
      else (s.withCycle { s.cycle with breakpoints := s.cycle.breakpoints.set ⟨index.toNat, h⟩ ⟨k, a⟩ }).done
    | _, _ => s.answer .badArg
  else if index = 4 then
    match onOffOf action with
    | none => s.answer .badArg
    | some b =>
      if s.cycle.step = b then s.answer .noChange else (s.withCycle { s.cycle with step := b }).done
  else s.answer .badArg

/-! ### Clearing a fault (R149, R150) -/

/-- A record whose kind or last follow-on is the kind given. -/
def FaultRecord.names (r : FaultRecord) (k : FaultKind) : Bool := r.kind = k || r.lastFollowOn = some k

/-- The kind that keeps the record in place, its line still active, in the order of R149 (log 31). -/
def State.stillActive (s : State) (r : FaultRecord) : Option FaultKind :=
  if r.names .estop && s.estopOn then some .estop
  else if r.names .guard && s.guardOpen then some .guard
  else if r.names .mediaEnd && s.mediaEnd then some .mediaEnd
  else none

/-- The fault record emptied: HELD(RECOVER) while a run is active, else IDLE; no notice (R150). -/
def State.clearFault (s : State) : State :=
  let s := s.withCycle { s.cycle with fault := none }
  if s.cycle.runActive then
    let s := s.setCycle .held
    s.withCycle { s.cycle with hold := some .recover }
  else s.setCycle .idle

/-- CLEAR_FAULT's checks and effect (R149, R150); the reply carries the record as it stood. -/
def actClearFault (s : State) : Acted :=
  match s.cycle.fault with
  | none => s.answer .noChange
  | some r => match s.stillActive r with
    | some k => { s.answer .stillActive with data := [u8 k.code] }
    | none => s.clearFault.doneWith (faultEntryBytes r)

/-! ### Homing and starting (R94, R95) -/

/-- HOME's checks and effect (R94). -/
def actHome (s : State) : Acted :=
  if s.cycle.state = .halted then s.answer .faultLatched
  else if s.cycle.state ≠ .idle then s.answer .refusedState
  else if s.busy then s.answer .busy
  else if s.guardOpen then s.answer .guardOpen
  else ((s.setCycle .homing).place .home).done

/-- START_CUT's checks and effect (R95). -/
def actStartCut (s : State) : Acted :=
  if s.cycle.state = .halted then s.answer .faultLatched
  else if s.cycle.state ≠ .idle then s.answer .refusedState
  else if !s.motion.homed then s.answer .notHomed
  else if s.guardOpen then s.answer .guardOpen
  else if s.busy then s.answer .busy
  else if !anyToCutFrom s.nest.params s.store.panels.cells (s.cycle.pointer + s.cycle.owed) then s.answer .notFound
  else (s.withCycle { s.cycle with runActive := true }).startRun.done

/-! ### Suspending, resuming, stopping (R101, R107, R111) -/

/-- The run is under way: MEASURING, CUTTING, or FEEDING with run-active set (R101, R111). -/
def State.runUnderWay (s : State) : Bool :=
  s.cycle.state = .measuring || s.cycle.state = .cutting || (s.cycle.state = .feeding && s.cycle.runActive)

/-- SUSPEND's checks and effect (R101). -/
def actSuspend (s : State) : Acted :=
  if s.runUnderWay then
    if s.cycle.reasons.request then s.answer .noChange
    else if s.cycle.stopPending then s.answer .refusedState
    else (s.withCycle { s.cycle with reasons := { s.cycle.reasons with request := true } }).done
  else if s.cycle.state = .suspended then s.answer .noChange
  else s.answer .refusedState

/-- The answer stop still stands at an item start (R84). -/
def State.stoppedAtItem (s : State) : Bool := match s.plan.worklist with
  | some w => w.stopped
  | none => false

/-- A pending suspension is cancelled; a planner that stopped at an item start issues again (R107). -/
def State.cancelSuspension (s : State) : State :=
  let t := s.clearReasons
  if s.stoppedAtItem && s.cycle.state = .cutting then t.issueNow else t

/-- RESUME's checks and effect (R107 to R109). -/
def actResume (s : State) : Acted :=
  if s.cycle.state = .measuring ∨ s.cycle.state = .cutting ∨ s.cycle.state = .feeding then
    if s.suspendPending then s.cancelSuspension.done else s.answer .refusedState
  else if s.cycle.state = .suspended ∨ s.cycle.state = .held then
    if s.guardOpen then s.answer .guardOpen
    else if !s.motion.homed then s.answer .notHomed
    else if s.cycle.state = .suspended then s.resumeSuspended.done
    else s.resumeHeld.done
  else s.answer .refusedState

/-- A stop set pending: reasons cleared, the planner's unstarted entries withdrawn; it takes effect at once when no
entry of the run is executing (R111). -/
def State.setStop (s : State) : State :=
  let s := s.clearReasons.withdrawPlanner
  let s := s.withCycle { s.cycle with stopPending := true }
  if s.runEntryExecuting then s else s.stopEffect

/-- STOP_CUT's checks and effect (R111). -/
def actStopCut (s : State) : Acted :=
  if s.cycle.state = .suspended ∨ s.cycle.state = .held then s.stopEffect.done
  else if s.runUnderWay then
    if s.cycle.stopPending then s.answer .noChange else s.setStop.done
  else s.answer .refusedState

/-! ### Skipping a panel (R90, R112) -/

/-- The panel made SKIPPED, windows_left removed, its items SKIPPED (R2, R90). -/
def State.skipPanel (i : Slot) (s : State) : State :=
  (s.setPanel i { s.panel i with state := .skipped, windowsLeft := none }).mapWorklist (·.skip i)

/-- The number of items a skip of the panel makes SKIPPED (R112). -/
def State.skipCount (i : Slot) (s : State) : Nat := match s.plan.worklist with
  | some w => w.skipCount i
  | none => 0

/-- A build's outcome in a reply: ITEMS 0, EMPTY 1, FULL 2, then the item count (log 9). -/
def EntryOutcome.bytes : EntryOutcome → List Byte
  | .items n => 0 :: be16 n
  | .empty n => 1 :: be16 n
  | .full n => 2 :: be16 n

/-- SKIP_PANEL's checks and effect (R112); in HELD(PLAN_FULL) the planner builds at once (R81, log 13). -/
def actSkipPanel (slot : Byte) (s : State) : Acted :=
  match slotOf slot with
  | none => s.answer .badArg
  | some i =>
    if s.cycle.state ≠ .idle ∧ s.cycle.state ≠ .suspended ∧ s.cycle.state ≠ .held then s.answer .refusedState
    else if (s.panel i).lock ≠ .committed then s.answer .locked
    else if (s.panel i).state = .skipped then s.answer .noChange
    else if (s.panel i).state = .cut then s.answer .refusedState
    else
      let count := be16 (s.skipCount i)
      let t := s.skipPanel i
      if s.heldFor .planFull then
        match t.buildWorklist with
        | (t, outcome) => t.doneWith (count ++ outcome.bytes)
      else t.doneWith count

/-! ### Beside the run (R113 to R115) -/

/-- IDLE, SUSPENDED or HELD: where TEST_CUT and JOG are taken. -/
def State.standing (s : State) : Bool :=
  s.cycle.state = .idle || s.cycle.state = .suspended || s.cycle.state = .held

/-- The motion queue holds an entry or one is executing (R113, R114). -/
def State.queueBusy (s : State) : Bool := !s.motion.queue.isEmpty || s.busy

/-- The test square's entries placed, the state kept as the state before TESTCUT (R113). -/
def State.startTestCut (tool : Tool) (size : Nat) (p : BedPos) (s : State) : State :=
  let kept : Before := ⟨s.cycle.state, s.cycle.hold, s.cycle.taken⟩
  let s := s.setCycle .testcut
  let s := s.withCycle { s.cycle with before := some kept, testCuts := 0 }
  ((((s.place (.travel .cycle p)).place (.cut tool ⟨p.x + size, p.y⟩ none)).place
    (.cut tool ⟨p.x + size, p.y + size⟩ none)).place (.cut tool ⟨p.x, p.y + size⟩ none)).place (.cut tool p none)

/-- The tool, size and corner of a TEST_CUT, when they pass check 3 of R113. -/
def testSquareOf (tool : Byte) (size : Half) (x y : Word) : Option (Tool × Nat × BedPos) :=
  match toolOf tool with
  | none => none
  | some t =>
    let p := bedPosOf x y
    let n := size.toNat
    if 500 ≤ n ∧ n ≤ 2500 ∧ p.onBed ∧ (BedPos.mk (p.x + n) (p.y + n)).onBed then some (t, n, p) else none

/-- TEST_CUT's checks and effect (R113). -/
def actTestCut (tool : Byte) (size : Half) (x y : Word) (s : State) : Acted :=
  if s.cycle.state = .halted then s.answer .faultLatched
  else if !s.standing then s.answer .refusedState
  else match testSquareOf tool size x y with
    | none => s.answer .badArg
    | some (t, n, p) =>
      if !s.motion.homed then s.answer .notHomed
      else if s.guardOpen then s.answer .guardOpen
      else if s.queueBusy then s.answer .busy
      else (s.startTestCut t n p).done

/-- JOG's checks and effect (R114). -/
def actJog (x y : Word) (s : State) : Acted :=
  if s.cycle.state = .halted then s.answer .faultLatched
  else if !s.standing then s.answer .refusedState
  else if !(bedPosOf x y).onBed then s.answer .badArg
  else if !s.motion.homed then s.answer .notHomed
  else if s.guardOpen then s.answer .guardOpen
  else if s.queueBusy then s.answer .busy
  else (s.place (.travel .cycle (bedPosOf x y))).done

/-- The distance of a FEED of `n` windows: the windows' advance, plus the feed remainder while windows are owed
(R115). -/
def State.feedDistance (n : Nat) (s : State) : Int :=
  n * s.nest.params.advance + (if 0 < s.cycle.owed then s.cycle.remainder else 0)

/-- A FEED taken (R115). A distance below 1, which no FEED entry can carry, is reckoned as run at once (log 14). -/
def State.startFeedRequest (n : Nat) (s : State) : State :=
  if s.feedDistance n < 1 then ((s.advancePointer (n + s.cycle.owed)).clearOwed).setCycle .idle
  else s.placeFeed (s.feedDistance n).toNat ⟨.request, n + s.cycle.owed⟩

/-- FEED's checks and effect (R115). -/
def actFeed (n : Byte) (s : State) : Acted :=
  if s.cycle.state = .halted then s.answer .faultLatched
  else if s.cycle.state ≠ .idle then s.answer .refusedState
  else if n.toNat < 1 ∨ 8 < n.toNat then s.answer .badArg
  else if s.guardOpen then s.answer .guardOpen
  else if s.busy then s.answer .busy
  else (s.startFeedRequest n.toNat).done

/-! ### JOB_CLEAR (R116) -/

/-- The panel store cleared: every slot EMPTY, the free-block list rebuilt (R21); no outline is open then. -/
def PanelStore.cleared (st : PanelStore) : PanelStore :=
  { st with panels := Table.fill 96 Panel.emptyRecord, free := List.range Config.blocks }

/-- The mark unit with no rows and no bands, its working state empty, its parameters kept (R49, R70). -/
def MarkUnit.cleared (mu : MarkUnit) : MarkUnit :=
  { mu with rows := [], bands := [], span := none, seam := none, flight := none }

/-- The job cleared in every unit (R116). -/
def State.clearJob (s : State) : State :=
  ((((s.withStore s.store.cleared).withNest { s.nest with skyline := [] }).withMarks s.marks.cleared).withPlan
    { s.plan with worklist := none }).withCycle { s.cycle with pointer := 0, remainder := 0, owed := 0 }

/-- JOB_CLEAR's checks and effect (R116). -/
def actJobClear (s : State) : Acted :=
  if s.cycle.state ≠ .idle then s.answer .refusedState
  else if s.outlineOpen then s.answer .refusedState
  else if s.nestRunning then s.answer .nestBusy
  else if (s.store.panels.cells.any fun p => p.lock = .committed) && !s.keyOn then s.answer .locked
  else s.clearJob.done

/-! ### The commands -/

/-- SET_BREAK delivered. -/
def runSetBreak (tag index kind argument action : Byte) : State → State :=
  serve 0x09 tag (actSetBreak index kind argument action)
/-- CLEAR_FAULT delivered. -/
def runClearFault (tag : Byte) : State → State := serve 0x0A tag actClearFault
/-- HOME delivered. -/
def runHome (tag : Byte) : State → State := serve 0x20 tag actHome
/-- START_CUT delivered. -/
def runStartCut (tag : Byte) : State → State := serve 0x21 tag actStartCut
/-- SUSPEND delivered. -/
def runSuspend (tag : Byte) : State → State := serve 0x22 tag actSuspend
/-- RESUME delivered. -/
def runResume (tag : Byte) : State → State := serve 0x23 tag actResume
/-- STOP_CUT delivered. -/
def runStopCut (tag : Byte) : State → State := serve 0x24 tag actStopCut
/-- SKIP_PANEL delivered. -/
def runSkipPanel (tag slot : Byte) : State → State := serve 0x25 tag (actSkipPanel slot)
/-- TEST_CUT delivered. -/
def runTestCut (tag tool : Byte) (size : Half) (x y : Word) : State → State :=
  serve 0x26 tag (actTestCut tool size x y)
/-- JOG delivered. -/
def runJog (tag : Byte) (x y : Word) : State → State := serve 0x27 tag (actJog x y)
/-- FEED delivered. -/
def runFeedRequest (tag n : Byte) : State → State := serve 0x28 tag (actFeed n)
/-- JOB_CLEAR delivered. -/
def runJobClear (tag : Byte) : State → State := serve 0x2F tag actJobClear

/-- SET_BREAK (R106). -/
def execSetBreak (tag index kind argument action : Byte) (s : State) : Host.Outcome State Fault Refusal :=
  request (.setBreak tag index kind argument action) (runSetBreak tag index kind argument action) s

/-- CLEAR_FAULT (R149, R150). -/
def execClearFault (tag : Byte) (s : State) : Host.Outcome State Fault Refusal :=
  request (.clearFault tag) (runClearFault tag) s

/-- HOME (R94). -/
def execHome (tag : Byte) (s : State) : Host.Outcome State Fault Refusal := request (.home tag) (runHome tag) s

/-- START_CUT (R95, R96). -/
def execStartCut (tag : Byte) (s : State) : Host.Outcome State Fault Refusal :=
  request (.startCut tag) (runStartCut tag) s

/-- SUSPEND (R101). -/
def execSuspend (tag : Byte) (s : State) : Host.Outcome State Fault Refusal :=
  request (.suspend tag) (runSuspend tag) s

/-- RESUME (R107 to R109). -/
def execResume (tag : Byte) (s : State) : Host.Outcome State Fault Refusal :=
  request (.resume tag) (runResume tag) s

/-- STOP_CUT (R111). -/
def execStopCut (tag : Byte) (s : State) : Host.Outcome State Fault Refusal :=
  request (.stopCut tag) (runStopCut tag) s

/-- SKIP_PANEL (R112). -/
def execSkipPanel (tag slot : Byte) (s : State) : Host.Outcome State Fault Refusal :=
  request (.skipPanel tag slot) (runSkipPanel tag slot) s

/-- TEST_CUT (R113). -/
def execTestCut (tag tool : Byte) (size : Half) (x y : Word) (s : State) : Host.Outcome State Fault Refusal :=
  request (.testCut tag tool size x y) (runTestCut tag tool size x y) s

/-- JOG (R114). -/
def execJog (tag : Byte) (x y : Word) (s : State) : Host.Outcome State Fault Refusal :=
  request (.jog tag x y) (runJog tag x y) s

/-- FEED (R115). -/
def execFeed (tag n : Byte) (s : State) : Host.Outcome State Fault Refusal :=
  request (.feed tag n) (runFeedRequest tag n) s

/-- JOB_CLEAR (R116). -/
def execJobClear (tag : Byte) (s : State) : Host.Outcome State Fault Refusal :=
  request (.jobClear tag) (runJobClear tag) s

/-- SETTLE_EXPIRY (R93, R97); a stopped timer does not expire (log 20). -/
def execSettleExpiry (s : State) : Host.Outcome State Fault Refusal :=
  .next (if s.cycle.settleTimer.isSome then s.begin.settleExpires.close else s.begin.close)

end Sys2Proof.Machine
end

