-- ==== Sys2Proof/Machine/MarkCmds.lean ====
section
/-! DEFINITION. The mark requests: MARK_SET, MARK_TAKE, ACCEPT_SEAM and REMEASURE (R66 to R69). -/

namespace Sys2Proof.Machine

/-- The row is a row of the current window (R52, R66). -/
def State.rowCurrent (s : State) (row : Nat) : Bool := match s.currentRows with
  | some sp => sp.has row && row < s.rowCount
  | none => false

/-- A mark becomes SET at a position in the current window; its row's bands take geometry UNCHECKED (R66). -/
def State.giveMark (row : Nat) (side : Side) (pos : BedPos) (s : State) : State :=
  match s.marks.mark row side with
  | some m => s.withMarks ((s.marks.setMark row side (m.given s.cycle.pointer pos)).uncheckRow row)
  | none => s

/-- The mark entry of a reply, as it now stands (R66). -/
def State.markData (s : State) (row : Nat) (side : Side) : List Byte := match s.marks.mark row side with
  | some m => markEntry s.nest.params row side m
  | none => []

/-- IDLE, HELD or SUSPENDED: where the mark requests set marks (R66 check 2). -/
def State.mayMark (s : State) : Bool := s.standing

/-- MARK_SET's checks and effect (R66). -/
def actMarkSet (row side : Byte) (x y : Word) (s : State) : Acted :=
  match sideOf side with
  | none => s.answer .badArg
  | some sd =>
    if 99 < row.toNat ∨ !(bedPosOf x y).onBed then s.answer .badArg
    else if !s.mayMark then s.answer .refusedState
    else if !s.rowCurrent row.toNat then s.answer .badArg
    else
      let t := s.giveMark row.toNat sd (bedPosOf x y)
      t.doneWith (t.markData row.toNat sd)

/-- MARK_TAKE's checks and effect (R67); the head position is present while the homed flag is set. -/
def actMarkTake (row side : Byte) (s : State) : Acted :=
  match sideOf side with
  | none => s.answer .badArg
  | some sd =>
    if 99 < row.toNat then s.answer .badArg
    else if !s.mayMark then s.answer .refusedState
    else if !s.rowCurrent row.toNat then s.answer .badArg
    else if !s.motion.homed then s.answer .notHomed
    else if s.busy then s.answer .busy
    else match s.motion.head with
      | none => s.answer .notHomed
      | some pos =>
        let t := s.giveMark row.toNat sd pos
        t.doneWith (t.markData row.toNat sd)

/-- ACCEPT_SEAM's checks and effect (R68). -/
def actAcceptSeam (s : State) : Acted :=
  if !s.heldFor .seamDeviation then s.answer .refusedState
  else if s.guardOpen then s.answer .guardOpen
  else if !s.motion.homed then s.answer .notHomed
  else (s.withMarks { s.marks with seam := none }).continueReadying.done

/-- The marks of the span UNREAD, its bands UNCHECKED, the seam pending record kept (R69; log 30 with no span). -/
def State.unreadWindow (s : State) : State :=
  s.withMarks { s.marks.unreadSpan s.currentRows with flight := none }

/-- HELD with a hold of the readying (R69). -/
def State.heldReadying (s : State) : Bool :=
  s.heldFor .markMissed || s.heldFor .markGeometry || s.heldFor .seamDeviation

/-- REMEASURE's checks and effect (R69). -/
def actRemeasure (s : State) : Acted :=
  if s.cycle.state = .suspended then s.unreadWindow.done
  else if !s.heldReadying then s.answer .refusedState
  else if s.guardOpen then s.answer .guardOpen
  else if !s.motion.homed then s.answer .notHomed
  else s.unreadWindow.continueReadying.done

/-- MARK_SET delivered. -/
def runMarkSet (tag row side : Byte) (x y : Word) : State → State := serve 0x29 tag (actMarkSet row side x y)
/-- MARK_TAKE delivered. -/
def runMarkTake (tag row side : Byte) : State → State := serve 0x2A tag (actMarkTake row side)
/-- ACCEPT_SEAM delivered. -/
def runAcceptSeam (tag : Byte) : State → State := serve 0x2B tag actAcceptSeam
/-- REMEASURE delivered. -/
def runRemeasure (tag : Byte) : State → State := serve 0x2C tag actRemeasure

/-- MARK_SET (R66). -/
def execMarkSet (tag row side : Byte) (x y : Word) (s : State) : Host.Outcome State Fault Refusal :=
  request (.markSet tag row side x y) (runMarkSet tag row side x y) s

/-- MARK_TAKE (R67). -/
def execMarkTake (tag row side : Byte) (s : State) : Host.Outcome State Fault Refusal :=
  request (.markTake tag row side) (runMarkTake tag row side) s

/-- ACCEPT_SEAM (R68). -/
def execAcceptSeam (tag : Byte) (s : State) : Host.Outcome State Fault Refusal :=
  request (.acceptSeam tag) (runAcceptSeam tag) s

/-- REMEASURE (R69). -/
def execRemeasure (tag : Byte) (s : State) : Host.Outcome State Fault Refusal :=
  request (.remeasure tag) (runRemeasure tag) s

end Sys2Proof.Machine
end

