-- ==== Sys2Proof/Machine/MotionCmds.lean ====
section
/-! DEFINITION. The events of the drive port: moves, searches, homing, the encoder, the feed and the axes' reports
(R123 to R129). An event that finds no entry it could act on is disregarded (R130, log 20). -/

namespace Sys2Proof.Machine

/-- MOVE_COMPLETION: the TRAVEL or CUT entry executing has reached its target (R123). -/
def execMoveCompletion (s : State) : Host.Outcome State Fault Refusal := .next s.begin.moveCompletes.close

/-! ### Searches (R124) -/

/-- A whole number of counts is not above an exact position. -/
def intLeRat (n : Int) (q : Rat) : Bool := n * q.den ≤ q.num
/-- An exact position is not above a whole number of counts. -/
def ratLeInt (q : Rat) (n : Int) : Bool := q.num ≤ n * q.den

/-- An exact centre lies within a rectangle, both corners included (R118, R124). -/
def Rect.contains (r : Rect) (x y : Rat) : Bool :=
  intLeRat r.x0 x && ratLeInt x r.x1 && intLeRat r.y0 y && ratLeInt y r.y1

/-- The centre rounded to whole counts (R124, 0-5.2). -/
def roundedCentre (x y : Rat) : BedPos := ⟨roundDiv x.num x.den, roundDiv y.num y.den⟩

/-- A report of a mark centre: taken when it lies within the rectangle of the SEARCH executing (R124). -/
def State.sensorReports (x y : Rat) (s : State) : State := match s.motion.executingEntry with
  | some (.search r) => if r.contains x y then s.searchCompletes (some (roundedCentre x y)) else s
  | _ => s

/-- MARK_SENSOR_REPORT (R124). -/
def execMarkSensorReport (x y : Rat) (s : State) : Host.Outcome State Fault Refusal :=
  .next (s.begin.sensorReports x y).close

/-- The scan of the SEARCH executing has covered its rectangle (R124). -/
def State.scanEnds (s : State) : State := match s.motion.executingEntry with
  | some (.search _) => s.searchCompletes none
  | _ => s

/-- SEARCH_SCAN_END (R124). -/
def execSearchScanEnd (s : State) : Host.Outcome State Fault Refusal := .next s.begin.scanEnds.close

/-! ### Homing (R126) -/

/-- An axis is home in the HOME entry executing (R125). -/
def Homing.home (h : Homing) : Axis → Bool
  | .x => h.xHome
  | .y => h.yHome

/-- An axis being driven has moved its full travel: HOME_FAIL (R126). -/
def State.fullTravel (axis : Axis) (s : State) : State :=
  if s.homeExecuting then match s.motion.homing with
    | some h => if h.home axis then s else s.raiseFault .homeFail (.axis axis) none
    | none => s
  else s

/-- HOME_FULL_TRAVEL (R126). -/
def execHomeFullTravel (axis : Axis) (s : State) : Host.Outcome State Fault Refusal :=
  .next (s.begin.fullTravel axis).close

/-! ### The feed (R128, R129) -/

/-- A step of the encoder while a FEED executes: the count moves by one and the guard timer starts again (R128). -/
def State.encoderSteps (forward : Bool) (s : State) : State :=
  if s.feedExecuting then
    s.withMotion { s.motion with
      encoder := s.motion.encoder + (if forward then 1 else -1)
      guardTimer := some s.motion.params.feedGuardTime }
  else s

/-- ENCODER_STEP (R128). -/
def execEncoderStep (forward : Bool) (s : State) : Host.Outcome State Fault Refusal :=
  .next (s.begin.encoderSteps forward).close

/-- The guard timer expires: MEDIA_SLIP(TIMER) (R128). -/
def State.guardExpires (s : State) : State :=
  if s.motion.guardTimer.isSome then match s.motion.executingEntry with
    | some (.feed d) => s.raiseFault .mediaSlip (.slip false d s.motion.encoder) none
    | _ => s
  else s

/-- FEED_GUARD_EXPIRY (R128). -/
def execFeedGuardExpiry (s : State) : Host.Outcome State Fault Refusal := .next s.begin.guardExpires.close

/-- The media has slipped: the encoder count and the commanded distance differ by more than SLIP_TOL (R129). -/
def State.slipped (s : State) (distance : Nat) : Bool :=
  s.motion.params.slipTol < (s.motion.encoder - distance).natAbs

/-- The guard timer stopped and FEED_DRIVE off (R129). -/
def State.stopDrive (s : State) : State :=
  (s.withMotion { s.motion with guardTimer := none }).withBed { s.bed with feedDrive := false }

/-- The feed drive has run the commanded distance (R129). -/
def State.driveDone (s : State) : State := match s.motion.executingEntry with
  | some (.feed d) =>
    if s.slipped d then s.stopDrive.raiseFault .mediaSlip (.slip true d s.motion.encoder) none
    else s.stopDrive.feedCompletes
  | _ => s

/-- FEED_DRIVE_DONE (R129). -/
def execFeedDriveDone (s : State) : Host.Outcome State Fault Refusal := .next s.begin.driveDone.close

/-! ### The axes (R123, R125) -/

/-- The head follows the axes while an entry that moves it executes and the homed flag is set; during a feed the head
position is kept (R123, R125, R127). -/
def State.axesReport (x y : Int) (s : State) : State := match s.motion.executingEntry with
  | some (.feed _) => s
  | some _ => if s.motion.homed then s.withMotion { s.motion with head := some ⟨x, y⟩ } else s
  | none => s

/-- AXIS_POSITION_REPORT (R123, R125). -/
def execAxisPositionReport (x y : Int) (s : State) : Host.Outcome State Fault Refusal :=
  .next (s.begin.axesReport x y).close

end Sys2Proof.Machine
end

