-- ==== Sys2Proof/Machine/Reset.lean ====
section
/-! DEFINITION. The hardware reset (R161) and the link clear (R160) across the units. -/

namespace Sys2Proof.Machine

/-- What the machine holds besides its reset values: the commands that wait, and the vertex places of the contour
store, which a reset does not write (R8, R19). -/
def State.keptThroughReset (old new : State) : State :=
  { new with pending := old.pending, store := { new.store with contour := old.store.contour } }

/-- A hardware reset: every unit at its starting values, STARTED queued; an ESTOP wire at 1 is the ESTOP fault right
after it (R131, R161). -/
def State.hardwareReset (cause : ResetCause) (wires : Byte) (s : State) : State :=
  let t := s.keptThroughReset (State.afterReset cause wires)
  if t.estopOn then t.raiseFault .estop .none none else t

/-- HARDWARE_RESET (R161). -/
def execHardwareReset (cause : ResetCause) (wires : Byte) (s : State) : Host.Outcome State Fault Refusal :=
  .next (s.hardwareReset cause wires).close

/-- The link port at a link clear (R160); the next one needs the line to return high. -/
def LinkPort.clear (l : LinkPort) : LinkPort :=
  { l with
    rate := 0
    receiver := .hunting
    inbound := []
    overrun := 0
    outbound := [linkClearedNotice]
    dropped := false
    watch := ⟨.off, 0, 0⟩
    watchTimer := none
    cursor := none
    armed := false }

/-- The panel store at a link clear: an open outline is abandoned (R20). -/
def PanelStore.linkCleared (st : PanelStore) : PanelStore := match st.loader with
  | some o => st.abandon o
  | none => st

/-- The cycle states in which a link clear is a fault (R92). -/
def CycleState.linkClearFaults (c : CycleState) : Bool :=
  c = .homing || c = .measuring || c = .cutting || c = .feeding || c = .testcut

/-- The LINK_CLEAR fault is due (R92). -/
def State.linkClearFaults (s : State) : Bool := s.busy || s.cycle.state.linkClearFaults

/-- A link clear (R20, R38, R92, R160). -/
def State.linkClears (s : State) : State :=
  let t := (s.withLink s.link.clear).withStore s.store.linkCleared
  let t := if t.nestRunning then t.dropNest else t
  if t.linkClearFaults then t.raiseFault .linkClear .none none else t

/-- LINK_CLEAR (R160); a line that has not returned high since the last one gives none. -/
def execLinkClear (s : State) : Host.Outcome State Fault Refusal :=
  .next (if s.link.armed then s.begin.linkClears.close else s.begin.close)

end Sys2Proof.Machine
end

