-- ==== Sys2Proof/Machine/Tables.lean ====
section
/-! DEFINITION. The link port's own requests: table reads (R135, R166, R167), the watch (R168), STATUS and IDENT
(R169), LINK_TEST (R159), SET_LINK (R153), and the delivery of SET_PARAM and GET_PARAM (R165). -/

namespace Sys2Proof.Machine

/-! ### Tables by index (R166, R167, R170, R171) -/

/-- The code of a table (R166). -/
def TableName.code : TableName → Nat
  | .panels => 0 | .marks => 1 | .bands => 2 | .items => 3 | .skyline => 4 | .inputs => 5 | .breakpoints => 6
  | .fault => 7

/-- The slot that qualifiers 2 and 3 of PANELS read; slot 0 stands in for a number no cursor holds. -/
def TableCursor.panelSlot (c : TableCursor) : Slot := if h : c.slot < 96 then ⟨c.slot, h⟩ else 0

/-- The vertices that may be read of a slot: all of them, or those received while it is LOADING (R9, R167). -/
def State.readableVertices (s : State) (i : Slot) : Nat :=
  if (s.panel i).state = .loading then match s.store.loader with
    | some o => if o.slot = i then o.received else 0
    | none => 0
  else (s.panel i).vertexCount

/-- The number of items of the worklist's table. -/
def State.items (s : State) : List Item := match s.plan.worklist with
  | some w => w.items
  | none => []

/-- The size of the table a cursor names (R166, R167). -/
def State.tableSize (s : State) (c : TableCursor) : Nat := match c.table with
  | .panels => match c.qualifier with
    | 0 => 96
    | 1 => s.store.free.length
    | 2 => (s.panel c.panelSlot).chain.length
    | _ => s.readableVertices c.panelSlot
  | .marks => 2 * s.rowCount
  | .bands => s.marks.bands.length
  | .items => s.items.length
  | .skyline => s.nest.skyline.length
  | .inputs => 1
  | .breakpoints => 5
  | .fault => if s.cycle.fault.isSome then 1 else 0

/-- The width in bytes of an entry (R166, R167, R170, R171). -/
def TableCursor.entryWidth (c : TableCursor) : Nat := match c.table with
  | .panels => match c.qualifier with
    | 0 => 54
    | 1 => 2
    | 2 => 2
    | _ => 8
  | .marks => 32
  | .bands => 12
  | .items => 34
  | .skyline => 12
  | .inputs => 32
  | .breakpoints => 4
  | .fault => 28

/-- The mark entry of a table index: row by row, left before right (R49). -/
def State.markEntryAt (s : State) (i : Nat) : List Byte :=
  let side : Side := if i % 2 = 0 then .left else .right
  match s.marks.mark (i / 2) side with
  | some m => markEntry s.nest.params (i / 2) side m
  | none => []

/-- The breakpoint entry of a table index: the four breakpoints, then the step flag (R166, log 9). -/
def State.breakEntryAt (s : State) (i : Nat) : List Byte :=
  if h : i < 4 then (s.cycle.breakpoints.get ⟨i, h⟩).bytes else [0, 0, u8 (bitAt 0 s.cycle.step), 0]

/-- An entry of the table a cursor names, as it stands (R22, R166, R167). -/
def State.tableEntry (s : State) (c : TableCursor) (i : Nat) : List Byte := match c.table with
  | .panels => match c.qualifier with
    | 0 => if h : i < 96 then panelEntry i (s.panel ⟨i, h⟩) else []
    | 1 => be16 (s.store.free.getD i 0)
    | 2 => be16 ((s.panel c.panelSlot).chain.getD i 0)
    | _ =>
      let w := s.store.vertex (s.panel c.panelSlot).chain i
      be32 w.u ++ be32 w.v
  | .marks => s.markEntryAt i
  | .bands => match s.marks.bands[i]? with
    | some g => bandEntry s.marks i g
    | none => []
  | .items => match s.items[i]? with
    | some it => itemEntry i it
    | none => []
  | .skyline => match s.nest.skyline[i]? with
    | some g => segEntry g
    | none => []
  | .inputs => inputsEntry s.bed
  | .breakpoints => s.breakEntryAt i
  | .fault => match s.cycle.fault with
    | some r => faultEntryBytes r
    | none => []

/-! ### A piece of a table (R166) -/

/-- The number of entries a piece returns: at most `max`, at most what fits whole in 234 bytes, and no more than the
table has from the index on; none after END (R166). -/
def State.pieceCount (s : State) (c : TableCursor) (max : Nat) : Nat :=
  if c.ended then 0 else min (min max (Config.tableBytes / c.entryWidth)) (s.tableSize c - c.index)

/-- A piece ends its table: the last entry has been returned or there was none to return (R166). -/
def State.pieceEnds (s : State) (c : TableCursor) (max : Nat) : Bool :=
  c.ended || s.tableSize c ≤ c.index + s.pieceCount c max

/-- The read header: table, qualifier, index of the first entry, the number returned with END in its high bit
(R166). -/
def readHeader (table qualifier index count : Nat) (last : Bool) : List Byte :=
  [u8 table, u8 qualifier] ++ be16 index ++ [u8 (count + bitAt 7 last)]

/-- The data of a piece: header and entries (R166). -/
def State.pieceData (s : State) (c : TableCursor) (max : Nat) : List Byte :=
  let n := s.pieceCount c max
  readHeader c.table.code c.qualifier c.index n (s.pieceEnds c max) ++
    (List.range n).flatMap fun d => s.tableEntry c (c.index + d)

/-- The change set emptied (R135). -/
def State.emptyChanges (s : State) : State :=
  s.withBed { s.bed with
    lines := s.bed.lines.map fun _ l => { l with riseChange := false, fallChange := false } }

/-- A piece is read: the cursor stands after the last entry returned, at the index asked when none was (log 33), and
keeps that END was given; an INPUTS entry placed in the reply empties the change set (R135, R166). -/
def State.readPiece (c : TableCursor) (max : Nat) (s : State) : Acted :=
  let n := s.pieceCount c max
  let next : TableCursor := { c with index := c.index + n, ended := s.pieceEnds c max }
  let data := s.pieceData c max
  let s := if c.table = .inputs ∧ 0 < n then s.emptyChanges else s
  (s.withLink { s.link with cursor := some next }).doneWith data

/-- The cursor a READ_TABLE names, when its table, qualifier and slot are accepted (R166, R167): qualifiers 2 and 3 of
PANELS take the slot from the start index's high byte and the index from its low byte. -/
def cursorOf (table qualifier : Byte) (start : Half) : Option TableCursor := match tableOf table with
  | none => none
  | some .panels =>
    if qualifier.toNat ≤ 1 then some ⟨.panels, qualifier.toNat, 0, start.toNat, false⟩
    else if qualifier.toNat ≤ 3 ∧ start.toNat / 256 < 96 then
      some ⟨.panels, qualifier.toNat, start.toNat / 256, start.toNat % 256, false⟩
    else none
  | some t => if qualifier = 0 then some ⟨t, 0, 0, start.toNat, false⟩ else none

/-- READ_TABLE (R166). -/
def actReadTable (table qualifier : Byte) (start : Half) (max : Byte) (s : State) : Acted :=
  if max = 0 then s.answer .badArg
  else match cursorOf table qualifier start with
    | none => s.answer .badArg
    | some c => s.readPiece c max.toNat

/-- READ_NEXT (R166); with the cursor none, a header of zeros with END (log 9). -/
def actReadNext (max : Byte) (s : State) : Acted :=
  if max = 0 then s.answer .badArg
  else match s.link.cursor with
    | none => s.doneWith (readHeader 0 0 0 0 true)
    | some c => s.readPiece c max.toNat

/-! ### The watch, STATUS, IDENT, LINK_TEST, SET_LINK -/

/-- WATCH (R168). -/
def actWatch (item slot : Byte) (period : Half) (s : State) : Acted :=
  match watchItemOf item with
  | none => s.answer .badArg
  | some w =>
    if w ≠ .off ∧ (period.toNat < 100 ∨ 10000 < period.toNat) then s.answer .badArg
    else if w = .panel ∧ 95 < slot.toNat then s.answer .badArg
    else
      (s.withLink { s.link with
        watch := ⟨w, slot, period.toNat⟩
        watchTimer := if w = .off then none else some period.toNat }).done

/-- STATUS (R169). -/
def actStatus (s : State) : Acted := s.doneWith (statusData s)

/-- IDENT (R169). -/
def actIdent (s : State) : Acted := s.doneWith (identData s)

/-- LINK_TEST (R159). -/
def actLinkTest (payload : List Byte) (s : State) : Acted := s.doneWith payload

/-- SET_LINK (R153): the new rate takes effect when the reply's last byte has been sent. -/
def actSetLink (code : Byte) (s : State) : Acted :=
  if h : code.toNat < 4 then
    if s.link.rate = ⟨code.toNat, h⟩ then s.answer .noChange
    else { s.done with rate := some ⟨code.toNat, h⟩ }
  else s.answer .badArg

/-! ### The commands -/

/-- IDENT delivered. -/
def runIdent (tag : Byte) : State → State := serve 0x01 tag actIdent
/-- LINK_TEST delivered. -/
def runLinkTest (tag : Byte) (payload : List Byte) : State → State := serve 0x02 tag (actLinkTest payload)
/-- SET_LINK delivered. -/
def runSetLink (tag code : Byte) : State → State := serve 0x03 tag (actSetLink code)
/-- SET_PARAM delivered. -/
def runSetParam (tag param index : Byte) (value : Word) : State → State :=
  serve 0x04 tag (actSetParam param index value)
/-- GET_PARAM delivered. -/
def runGetParam (tag param index : Byte) : State → State := serve 0x05 tag (actGetParam param index)
/-- READ_TABLE delivered. -/
def runReadTable (tag table qualifier : Byte) (start : Half) (max : Byte) : State → State :=
  serve 0x06 tag (actReadTable table qualifier start max)
/-- READ_NEXT delivered. -/
def runReadNext (tag max : Byte) : State → State := serve 0x07 tag (actReadNext max)
/-- WATCH delivered. -/
def runWatch (tag item slot : Byte) (period : Half) : State → State := serve 0x08 tag (actWatch item slot period)
/-- STATUS delivered. -/
def runStatus (tag : Byte) : State → State := serve 0x0B tag actStatus

/-- IDENT (R169). -/
def execIdent (tag : Byte) (s : State) : Host.Outcome State Fault Refusal := request (.ident tag) (runIdent tag) s

/-- LINK_TEST (R159). -/
def execLinkTest (tag : Byte) (payload : List Byte) (s : State) : Host.Outcome State Fault Refusal :=
  request (.linkTest tag payload) (runLinkTest tag payload) s

/-- SET_LINK (R153). -/
def execSetLink (tag code : Byte) (s : State) : Host.Outcome State Fault Refusal :=
  request (.setLink tag code) (runSetLink tag code) s

/-- SET_PARAM (R165). -/
def execSetParam (tag param index : Byte) (value : Word) (s : State) : Host.Outcome State Fault Refusal :=
  request (.setParam tag param index value) (runSetParam tag param index value) s

/-- GET_PARAM (R165). -/
def execGetParam (tag param index : Byte) (s : State) : Host.Outcome State Fault Refusal :=
  request (.getParam tag param index) (runGetParam tag param index) s

/-- READ_TABLE (R166, R167). -/
def execReadTable (tag table qualifier : Byte) (start : Half) (max : Byte) (s : State) :
    Host.Outcome State Fault Refusal :=
  request (.readTable tag table qualifier start max) (runReadTable tag table qualifier start max) s

/-- READ_NEXT (R166, R167). -/
def execReadNext (tag max : Byte) (s : State) : Host.Outcome State Fault Refusal :=
  request (.readNext tag max) (runReadNext tag max) s

/-- WATCH (R168). -/
def execWatch (tag item slot : Byte) (period : Half) (s : State) : Host.Outcome State Fault Refusal :=
  request (.watch tag item slot period) (runWatch tag item slot period) s

/-- STATUS (R169). -/
def execStatus (tag : Byte) (s : State) : Host.Outcome State Fault Refusal := request (.status tag) (runStatus tag) s

end Sys2Proof.Machine
end

