-- ==== Sys2Proof/Machine/Take.lean ====
section
/-! DEFINITION. The take of an inbound record (R157). -/

namespace Sys2Proof.Machine

/-- A request delivered to its owner (R157 step 5, R162); an event is no record and delivers nothing. -/
def deliver (i : Instr) : State → State := match i with
  | .ident tag => runIdent tag
  | .linkTest tag payload => runLinkTest tag payload
  | .setLink tag code => runSetLink tag code
  | .setParam tag param index value => runSetParam tag param index value
  | .getParam tag param index => runGetParam tag param index
  | .readTable tag table qualifier start max => runReadTable tag table qualifier start max
  | .readNext tag max => runReadNext tag max
  | .watch tag item slot period => runWatch tag item slot period
  | .setBreak tag index kind argument action => runSetBreak tag index kind argument action
  | .clearFault tag => runClearFault tag
  | .status tag => runStatus tag
  | .openOutline tag slot n bleed tool flags order passes label =>
    runOpenOutline tag slot n bleed tool flags order passes label
  | .points tag first vertices => runPoints tag first vertices
  | .closeOutline tag => runCloseOutline tag
  | .abandonOutline tag => runAbandonOutline tag
  | .setPanel tag slot bleed tool flags order passes label =>
    runSetPanel tag slot bleed tool flags order passes label
  | .deletePanel tag slot => runDeletePanel tag slot
  | .nest tag flags => runNest tag flags
  | .nestAbort tag => runNestAbort tag
  | .place tag slot rotation x y => runPlace tag slot rotation x y
  | .unplace tag slot => runUnplace tag slot
  | .pin tag slot => runPin tag slot
  | .unpin tag slot => runUnpin tag slot
  | .commit tag mode slots => runCommit tag mode slots
  | .uncommit tag slot => runUncommit tag slot
  | .home tag => runHome tag
  | .startCut tag => runStartCut tag
  | .suspend tag => runSuspend tag
  | .resume tag => runResume tag
  | .stopCut tag => runStopCut tag
  | .skipPanel tag slot => runSkipPanel tag slot
  | .testCut tag tool size x y => runTestCut tag tool size x y
  | .jog tag x y => runJog tag x y
  | .feed tag n => runFeedRequest tag n
  | .markSet tag row side x y => runMarkSet tag row side x y
  | .markTake tag row side => runMarkTake tag row side
  | .acceptSeam tag => runAcceptSeam tag
  | .remeasure tag => runRemeasure tag
  | .jobClear tag => runJobClear tag
  | .hardwareReset _ _ => id
  | .linkClear => id
  | .linkByteReceived _ _ => id
  | .frameGapExpiry => id
  | .shortBreak => id
  | .recordTake => id
  | .outboundRecordSent => id
  | .watchExpiry => id
  | .nestStep => id
  | .settleExpiry => id
  | .moveCompletion => id
  | .markSensorReport _ _ => id
  | .searchScanEnd => id
  | .homeFullTravel _ => id
  | .encoderStep _ => id
  | .feedGuardExpiry => id
  | .feedDriveDone => id
  | .lineWireChange _ _ => id
  | .filterExpiry _ => id
  | .axisPositionReport _ _ => id
  | .linkLineReturnHigh => id

/-- The kind code of LINK_ERROR for a damaged record (R164). -/
def Damage.code : Damage → Nat
  | .truncated => 1
  | .check => 2
  | .framing => 3

/-- The free outbound places a record's take waits for: one, or two with an overrun mark (R157). -/
def InRecord.placesNeeded (r : InRecord) : Nat := if r.mark.isSome then 2 else 1

/-- The overrun mark's notice takes its place at once, outside the room rule (R157 step 1). -/
def State.reportOverrun (mark : Option Nat) (s : State) : State := match mark with
  | some n => s.withLink { s.link with outbound := s.link.outbound ++ [linkErrorNotice 0 n []] }
  | none => s

/-- KIND of a record's body, 0 when it was not received. -/
def InRecord.kind (r : InRecord) : Byte := r.body.getD 0 0
/-- TAG of a record's body, 0 when it was not received. -/
def InRecord.tag (r : InRecord) : Byte := r.body.getD 1 0

/-- Steps 3 to 5 of R157: unknown KIND, wrong length, delivery. -/
def State.answerRecord (r : InRecord) (s : State) : State := match parseBody r.body with
  | .request i => deliver i s
  | .badLength => s.queueReply r.kind r.tag .badLength [] none
  | .unknownKind => s.queueReply r.kind r.tag .unknownKind [] none

/-- The record is taken (R157): overrun mark, then a damaged record's LINK_ERROR, or its answer. -/
def State.takeRecord (r : InRecord) (s : State) : State :=
  let s := s.reportOverrun r.mark
  match r.damage with
  | some d => s.emit (linkErrorNotice d.code 0 r.body)
  | none => s.answerRecord r

/-- The take at the head of the inbound queue, when the outbound queue has the places it waits for (R157). -/
def State.takes (s : State) : State := match s.link.inbound with
  | [] => s
  | r :: rest =>
    if s.link.outbound.length + r.placesNeeded ≤ Config.outboundPlaces then
      (s.withLink { s.link with inbound := rest }).takeRecord r
    else s

/-- RECORD_TAKE (R157). -/
def execRecordTake (s : State) : Host.Outcome State Fault Refusal := .next s.begin.takes.close

end Sys2Proof.Machine
end

