-- ==== Sys2Proof/Machine/Dispatch.lean ====
section
/-! DEFINITION. One arm for each command: the direct call of its meaning. -/

namespace Sys2Proof.Machine

/-- The effect of a command on everything but the queue of waiting commands. -/
def exec (i : Instr) (s : State) : Host.Outcome State Fault Refusal :=
  match i with
  | .hardwareReset cause wires => Sys2Proof.Machine.execHardwareReset cause wires s
  | .linkClear => Sys2Proof.Machine.execLinkClear s
  | .linkByteReceived byte stopError => Sys2Proof.Machine.execLinkByteReceived byte stopError s
  | .frameGapExpiry => Sys2Proof.Machine.execFrameGapExpiry s
  | .shortBreak => Sys2Proof.Machine.execShortBreak s
  | .recordTake => Sys2Proof.Machine.execRecordTake s
  | .outboundRecordSent => Sys2Proof.Machine.execOutboundRecordSent s
  | .watchExpiry => Sys2Proof.Machine.execWatchExpiry s
  | .ident tag => Sys2Proof.Machine.execIdent tag s
  | .linkTest tag payload => Sys2Proof.Machine.execLinkTest tag payload s
  | .setLink tag code => Sys2Proof.Machine.execSetLink tag code s
  | .setParam tag param index value => Sys2Proof.Machine.execSetParam tag param index value s
  | .getParam tag param index => Sys2Proof.Machine.execGetParam tag param index s
  | .readTable tag table qualifier start max => Sys2Proof.Machine.execReadTable tag table qualifier start max s
  | .readNext tag max => Sys2Proof.Machine.execReadNext tag max s
  | .watch tag item slot period => Sys2Proof.Machine.execWatch tag item slot period s
  | .setBreak tag index kind argument action => Sys2Proof.Machine.execSetBreak tag index kind argument action s
  | .clearFault tag => Sys2Proof.Machine.execClearFault tag s
  | .status tag => Sys2Proof.Machine.execStatus tag s
  | .openOutline tag slot n bleed tool flags order passes label => Sys2Proof.Machine.execOpenOutline tag slot n bleed tool flags order passes label s
  | .points tag first vertices => Sys2Proof.Machine.execPoints tag first vertices s
  | .closeOutline tag => Sys2Proof.Machine.execCloseOutline tag s
  | .abandonOutline tag => Sys2Proof.Machine.execAbandonOutline tag s
  | .setPanel tag slot bleed tool flags order passes label => Sys2Proof.Machine.execSetPanel tag slot bleed tool flags order passes label s
  | .deletePanel tag slot => Sys2Proof.Machine.execDeletePanel tag slot s
  | .nest tag flags => Sys2Proof.Machine.execNest tag flags s
  | .nestStep => Sys2Proof.Machine.execNestStep s
  | .nestAbort tag => Sys2Proof.Machine.execNestAbort tag s
  | .place tag slot rotation x y => Sys2Proof.Machine.execPlace tag slot rotation x y s
  | .unplace tag slot => Sys2Proof.Machine.execUnplace tag slot s
  | .pin tag slot => Sys2Proof.Machine.execPin tag slot s
  | .unpin tag slot => Sys2Proof.Machine.execUnpin tag slot s
  | .commit tag mode slots => Sys2Proof.Machine.execCommit tag mode slots s
  | .uncommit tag slot => Sys2Proof.Machine.execUncommit tag slot s
  | .home tag => Sys2Proof.Machine.execHome tag s
  | .startCut tag => Sys2Proof.Machine.execStartCut tag s
  | .suspend tag => Sys2Proof.Machine.execSuspend tag s
  | .resume tag => Sys2Proof.Machine.execResume tag s
  | .stopCut tag => Sys2Proof.Machine.execStopCut tag s
  | .skipPanel tag slot => Sys2Proof.Machine.execSkipPanel tag slot s
  | .testCut tag tool size x y => Sys2Proof.Machine.execTestCut tag tool size x y s
  | .jog tag x y => Sys2Proof.Machine.execJog tag x y s
  | .feed tag n => Sys2Proof.Machine.execFeed tag n s
  | .markSet tag row side x y => Sys2Proof.Machine.execMarkSet tag row side x y s
  | .markTake tag row side => Sys2Proof.Machine.execMarkTake tag row side s
  | .acceptSeam tag => Sys2Proof.Machine.execAcceptSeam tag s
  | .remeasure tag => Sys2Proof.Machine.execRemeasure tag s
  | .jobClear tag => Sys2Proof.Machine.execJobClear tag s
  | .settleExpiry => Sys2Proof.Machine.execSettleExpiry s
  | .moveCompletion => Sys2Proof.Machine.execMoveCompletion s
  | .markSensorReport x y => Sys2Proof.Machine.execMarkSensorReport x y s
  | .searchScanEnd => Sys2Proof.Machine.execSearchScanEnd s
  | .homeFullTravel axis => Sys2Proof.Machine.execHomeFullTravel axis s
  | .encoderStep forward => Sys2Proof.Machine.execEncoderStep forward s
  | .feedGuardExpiry => Sys2Proof.Machine.execFeedGuardExpiry s
  | .feedDriveDone => Sys2Proof.Machine.execFeedDriveDone s
  | .lineWireChange line level => Sys2Proof.Machine.execLineWireChange line level s
  | .filterExpiry line => Sys2Proof.Machine.execFilterExpiry line s
  | .axisPositionReport x y => Sys2Proof.Machine.execAxisPositionReport x y s
  | .linkLineReturnHigh => Sys2Proof.Machine.execLinkLineReturnHigh s

end Sys2Proof.Machine
end

