-- ==== Sys2Proof/Safety.lean ====
section
/-! DEFINITION. What the spec says holds in every state of the CN-96: the capacities, and what binds the cycle, the
motion unit, the tools, the outputs, the panel table, the contour store, the marks and the parameters. The invariant
statements are made over these, and what the other statements say with words of their own. -/

namespace Sys2Proof.Machine

/-! ### Capacities -/

/-- The queues within their places and the overrun count within its limit (R117, R156, R158). -/
def State.withinCapacity (s : State) : Bool :=
  s.link.outbound.length ≤ Config.outboundPlaces && s.link.inbound.length ≤ Config.inboundPlaces &&
  s.motion.queue.length ≤ Config.motionPlaces && s.link.overrun ≤ 255

/-- No notice is left unqueued between commands (log 6). -/
def State.quietLink (s : State) : Bool := s.link.formed.isEmpty

/-- A notice queued under the room rule, or dropped (R158). -/
def State.queueNotice (n : OutRecord) (s : State) : State := s.withLink (s.link.queueNotice n)

/-! ### Motion, tools and outputs -/

/-- The motion unit executes exactly while its queue holds an entry (R120). -/
def State.motionSettled (s : State) : Bool := s.motion.executing == !s.motion.queue.isEmpty

/-- Each tool line is on exactly while the motion unit holds that tool lowered, and at most one is (R121, R141). -/
def State.toolsSafe (s : State) : Bool :=
  (s.bed.toolKiss.isSome == (s.motion.kiss == .lowered)) &&
  (s.bed.toolThru.isSome == (s.motion.thru == .lowered)) &&
  !(s.motion.kiss == .lowered && s.motion.thru == .lowered)

/-- FEED_DRIVE is on exactly while a FEED executes, and then both tools are raised (R127). -/
def State.driveSafe (s : State) : Bool :=
  (s.bed.feedDrive == s.feedExecuting) &&
  (!s.feedExecuting || (s.motion.kiss == .raised && s.motion.thru == .raised))

/-- The head position is present exactly while the homed flag is set (R117, R126). -/
def State.headSafe (s : State) : Bool := s.motion.head.isSome == s.motion.homed

/-- An entry whose target the limit check tests executes only with the homed flag set and with its target, or both
corners of a SEARCH, within the bed travel (R120). -/
def State.movesHomed (s : State) : Bool := match s.motion.executingEntry with
  | some (.travel _ t) => s.motion.homed && t.onBed
  | some (.cut _ t _) => s.motion.homed && t.onBed
  | some (.search r) => s.motion.homed && (BedPos.mk r.x0 r.y0).onBed && (BedPos.mk r.x1 r.y1).onBed
  | some .home => true
  | some (.feed _) => true
  | none => true

/-! ### The cycle -/

/-- HALTED exactly while the fault record is occupied (R146), and then nothing moves and both tools are raised
(R130). -/
def State.haltSafe (s : State) : Bool :=
  ((s.cycle.state == .halted) == s.cycle.fault.isSome) &&
  (s.cycle.fault.isNone ||
    (s.motion.queue.isEmpty && !s.motion.executing && s.motion.kiss == .raised && s.motion.thru == .raised))

/-- The hold reason is present exactly in HELD, the record taken in SUSPENDED, the state before TESTCUT in TESTCUT
(R92). -/
def State.recordsSafe (s : State) : Bool :=
  (s.cycle.hold.isSome == (s.cycle.state == .held)) &&
  (s.cycle.taken.isSome == (s.cycle.state == .suspended)) &&
  (s.cycle.before.isSome == (s.cycle.state == .testcut)) &&
  match s.cycle.before with
  | some b =>
    (b.state == .idle || b.state == .suspended || b.state == .held) &&
    (b.hold.isSome == (b.state == .held)) && (b.taken.isSome == (b.state == .suspended))
  | none => true

/-- BEACON is on exactly in HELD and HALTED (R142). -/
def State.beaconSafe (s : State) : Bool := s.bed.beacon == (s.cycle.state == .held || s.cycle.state == .halted)

/-- The settle timer runs only in MEASURING (R93). -/
def State.settleSafe (s : State) : Bool := s.cycle.settleTimer.isNone || s.cycle.state == .measuring

/-- What binds the cycle controller, its records, its timer and its lamp to one another and to the motion unit. -/
def State.cycleSafe (s : State) : Bool :=
  s.motionSettled && s.haltSafe && s.recordsSafe && s.beaconSafe && s.settleSafe

/-! ### The panel table and the contour store -/

/-- The free blocks and the blocks of the chains, slot by slot. -/
def PanelStore.allBlocks (st : PanelStore) : List Nat := st.free ++ st.panels.cells.flatMap (·.chain)

/-- Every block stands once, on the free list or in one chain (R8). -/
def PanelStore.blocksSafe (st : PanelStore) : Prop := st.allBlocks.Perm (List.range Config.blocks)

/-- An EMPTY slot holds no block (R1, R8). -/
def PanelStore.emptySlotsBare (st : PanelStore) : Prop :=
  ∀ i, (st.panels.get i).state = .empty → (st.panels.get i).chain = []

/-! ### Marks and parameters -/

/-- There is one band fewer than rows, and none with fewer than two rows (R51). -/
def MarkUnit.bandsSafe (mu : MarkUnit) : Bool := mu.bands.length == mu.rows.length - 1

/-- A value lies in a parameter's range. -/
def inRange (lo hi n : Nat) : Bool := lo ≤ n && n ≤ hi

/-- The layout parameters in their ranges, MARK_PITCH within WINDOW_LENGTH (R24). -/
def LayoutParams.inRanges (p : LayoutParams) : Bool :=
  inRange 30000 162000 p.mediaWidth && inRange 500 5000 p.marginSide && inRange 1000 50000 p.lead &&
  inRange 25000 100000 p.markPitch && inRange 50000 250000 p.windowLength && inRange 0 5000 p.gap &&
  p.markPitch ≤ p.windowLength

/-- The motion unit's parameters in their ranges (R122). -/
def MotionParams.inRanges (p : MotionParams) : Bool :=
  inRange 20 600 p.kissPressure && inRange 100 1500 p.thruPressure && inRange 10 1000 p.kissSpeed &&
  inRange 10 1000 p.thruSpeed && inRange 50 1500 p.travelSpeed && inRange 10 1000 p.slipTol &&
  inRange 50 2000 p.feedGuardTime

/-- Every parameter in its range (R24, R54, R73, R93, R122). -/
def State.paramsSafe (s : State) : Bool :=
  s.nest.params.inRanges && s.motion.params.inRanges &&
  inRange 200 3000 s.plan.weedDistance && inRange 1 4 s.plan.kissPasses && inRange 1 4 s.plan.thruPasses &&
  inRange 500 4000 s.marks.searchSize && inRange 10 500 s.marks.geomTol && inRange 5 500 s.marks.seamTol &&
  inRange 0 5000 s.cycle.vacSettle

/-! ### Between commands -/

/-- Between commands: the motion unit settled, and no notice left formed. -/
def State.atRest (s : State) : Prop := s.motionSettled = true ∧ s.link.formed = []

/-- At rest, and with a free outbound place, which the take of a request waits for (R157). -/
def State.ready (s : State) : Prop := s.atRest ∧ s.link.outbound.length < Config.outboundPlaces

/-! ### Words of the statements -/

/-- The parameters without an index whose owner makes no check but the range: code, least and greatest value (R54,
R73, R93, R122, R165). -/
def rangeParams : List (Byte × Nat × Nat) :=
  [(0x10, 200, 3000), (0x11, 1, 4), (0x12, 1, 4), (0x18, 500, 4000), (0x19, 10, 500), (0x1A, 5, 500),
    (0x20, 20, 600), (0x21, 100, 1500), (0x22, 10, 1000), (0x23, 10, 1000), (0x24, 50, 1500), (0x25, 10, 1000),
    (0x26, 50, 2000), (0x28, 0, 5000)]

/-- The parameters of the table of R165 with their indices: code, least and greatest index. -/
def parameterIndices : List (Byte × Nat × Nat) :=
  [(0x01, 0, 0), (0x02, 0, 0), (0x03, 0, 0), (0x04, 0, 0), (0x05, 0, 0), (0x06, 0, 0), (0x10, 0, 0), (0x11, 0, 0),
    (0x12, 0, 0), (0x18, 0, 0), (0x19, 0, 0), (0x1A, 0, 0), (0x20, 0, 0), (0x21, 0, 0), (0x22, 0, 0), (0x23, 0, 0),
    (0x24, 0, 0), (0x25, 0, 0), (0x26, 0, 0), (0x28, 0, 0), (0x30, 0, 3), (0x31, 1, 7), (0x32, 0, 7), (0x33, 0, 7)]

/-- The issue pointer of a worklist stands at its cursor with a travel due that needs no report, the mark unit answers
the correction of the cursor point with `target`, and `target` lies on the bed (R83 to R85). -/
def State.travelDueTo (s : State) (w : Worklist) (target : BedPos) : Prop :=
  ∃ i it, w.cursorIndex = some i ∧ w.items[i]? = some it ∧
    w.issue = ⟨some i, it.passDone, it.segDone, true, false⟩ ∧
    (it.passDone ≠ 0 ∨ it.segDone ≠ 0 ∨ w.startPassed = some i) ∧
    s.correct (s.itemPoint w it (it.pointAfter it.passDone it.segDone)) = some target ∧ target.onBed = true

/-- A row count leaves a span that is fixed in MEASURING with rows: the readying in progress does not end for want of
rows (R52). -/
def State.keepsSpan (s : State) (rows : Nat) : Prop :=
  s.cycle.state = .measuring → s.marks.span ≠ none → (s.marks.applyRowCount rows).span ≠ none

/-- The segments cover [a, b) one after another, each at least 1 wide, no two neighbours of equal height (R26). -/
def coversRoll (a b : Nat) : List Seg → Prop
  | [] => a = b
  | g :: l => g.x = a ∧ 0 < g.width ∧ (∀ h, l.head? = some h → h.height ≠ g.height) ∧
    coversRoll (a + g.width) b l

/-- The height of the skyline at a point of the roll. -/
def heightAt (l : List Seg) (x : Nat) : Option Nat :=
  (l.find? fun g => g.x ≤ x && x < g.x + g.width).map (·.height)

/-- A whole number is a position rounded to the nearest count, halves away from zero (0-5.2). -/
def roundsTo (q : Rat) (n : Int) : Prop :=
  |q - n| ≤ 1 / 2 ∧ (|q - n| = 1 / 2 → |q| ≤ |(n : Rat)|)

end Sys2Proof.Machine
end

