-- ==== Sys2Proof/Certificates/Slice0/Obligations.lean ====
section
/-! DEFINITION. The statements for the provers, unit by unit. `s.ready` (Safety.lean) says that no command is under way
and that the outbound queue has a free place, which the take of a request waits for (R157). A statement whose conclusion
is an equation gives the whole next state: what it does not name is unchanged. -/

open Sys2Proof Sys2Proof.Machine

/-! ### The step -/

/-- A step runs the command at the front of the queue on the rest of the queue; an empty queue idles (log 1, log 25). -/
def Obligations.StepRunsFrontCommand : Prop :=
  ∀ (c : Instr) (s : State),
    step { s with pending := c :: s.pending } = exec c s ∧ (s.pending = [] → step s = .next s)

/-- Every command answers a next state, in every state, and leaves the commands that wait as they are. -/
def Obligations.EveryCommandGoesOn : Prop :=
  ∀ (c : Instr) (s : State), ∃ t, exec c s = .next t ∧ t.pending = s.pending

/-! ### Reset and link clear -/

/-- R19: the panel store after a hardware reset, its vertex places as they were. -/
def Obligations.HardwareResetPanelStore : Prop :=
  ∀ (s : State) (cause : ResetCause) (wires : Byte), ∃ t,
    exec (.hardwareReset cause wires) s = .next t ∧
    (∀ i, t.panel i = ⟨.empty, .free, [], .kiss, false, false, 0, 0, 0, 0, none, none, .none, none, []⟩) ∧
    t.store.free = List.range 512 ∧ t.store.loader = none ∧ t.store.contour = s.store.contour

/-- What every other unit holds after a hardware reset whose ESTOP wire is at 0 (R24, R28, R49, R54, R70, R73, R74, R91
to R93, R106, R117, R122, R131 to R134, R141, R143, R146, R161). A hardware reset with the ESTOP wire at 1 leaves
HALTED with the ESTOP record, STARTED before FAULT (R131, R146). -/
def Obligations.HardwareResetUnits : Prop :=
  (∀ (s : State) (cause : ResetCause) (wires : Byte), wires.getLsbD 0 = false → ∃ t,
     exec (.hardwareReset cause wires) s = .next t ∧
     t.nest = ⟨⟨137000, 1500, 5000, 50000, 125000, 600⟩, [], none⟩ ∧
     t.marks = ⟨[], [], none, none, none, 2000, 100, 50⟩ ∧
     t.plan = ⟨none, 500, 1, 2⟩ ∧
     (t.cycle.state = .idle ∧ t.cycle.reasons = ⟨false, false, false⟩ ∧ t.cycle.halts = 0 ∧ t.cycle.taken = none ∧
       t.cycle.hold = none ∧ t.cycle.before = none ∧ t.cycle.runActive = false ∧ t.cycle.stopPending = false ∧
       t.cycle.pointer = 0 ∧ t.cycle.remainder = 0 ∧ t.cycle.owed = 0 ∧ t.cycle.step = false ∧
       t.cycle.settleTimer = none ∧ t.cycle.vacSettle = 800 ∧ t.cycle.fault = none ∧
       ∀ i, t.cycle.breakpoints.get i = ⟨.off, .notify⟩) ∧
     (t.motion.queue = [] ∧ t.motion.executing = false ∧ t.motion.head = none ∧ t.motion.homed = false ∧
       t.motion.kiss = .raised ∧ t.motion.thru = .raised ∧ t.motion.commanded = none ∧ t.motion.encoder = 0 ∧
       t.motion.guardTimer = none ∧ t.motion.params = ⟨120, 600, 400, 200, 800, 100, 300⟩) ∧
     (∀ i : Fin 8, t.bed.lines.get i =
       ⟨wires.getLsbD i.val, wires.getLsbD i.val, .f8, none, false, false, false, false⟩) ∧
     (t.bed.toolKiss = none ∧ t.bed.toolThru = none ∧ t.bed.feedDrive = false ∧ t.bed.beacon = false ∧
       ∀ z, t.bed.zones.get z = false ∧ t.bed.vacSafe.get z = .hold) ∧
     (t.link.rate = 0 ∧ t.link.receiver = .hunting ∧ t.link.inbound = [] ∧ t.link.overrun = 0 ∧
       t.link.dropped = false ∧ t.link.watch.item = .off ∧ t.link.watchTimer = none ∧ t.link.cursor = none ∧
       t.link.outbound = [⟨0x60, 0, [match cause with | .powerOn => 0 | .resetLine => 1, 0], none⟩])) ∧
  (∀ (s : State) (cause : ResetCause) (wires : Byte), wires.getLsbD 0 = true → ∃ t,
     exec (.hardwareReset cause wires) s = .next t ∧
     t.cycle.state = .halted ∧ t.cycle.runActive = false ∧ t.bed.beacon = true ∧
     t.cycle.fault = some ⟨.estop, .none, .idle, .none, 0, none, none, 0, none⟩ ∧
     t.motion.queue = [] ∧ t.motion.homed = false ∧ t.motion.head = none ∧
     t.link.outbound = [startedRecord cause, faultNotice ⟨.estop, .none, .idle, .none, 0, none, none, 0, none⟩])

/-- LINK_CLEAR, where it raises no fault (R20, R38, R92, R160): the link port cleared, an open outline abandoned, a nest
run aborted, nothing else changed. The watch's slot and period at OFF are the model's (log 27). LINK_CLEAR with an
entry executing or in the five cycle states of R92 raises the LINK_CLEAR fault, its FAULT notice behind LINK_CLEARED;
and a line that has not returned high since the last link clear gives none (R160). -/
def Obligations.LinkClearClearsOrFaults : Prop :=
  (∀ (s : State), s.atRest → s.link.armed = true → s.busy = false →
     (s.cycle.state = .idle ∨ s.cycle.state = .suspended ∨ s.cycle.state = .held ∨ s.cycle.state = .halted) →
     exec .linkClear s = .next { s with
       link := ⟨0, .hunting, [], 0, [⟨0x61, 0, [0, 0], none⟩], false, ⟨.off, 0, 0⟩, none, none, false, []⟩
       store := match s.store.loader with
         | some o => { s.store with
             panels := s.store.panels.set o.slot Panel.emptyRecord
             free := s.store.free ++ (s.store.panels.get o.slot).chain
             loader := none }
         | none => s.store
       nest := match s.nest.run with
         | some _ => { s.nest with skyline := [], run := none }
         | none => s.nest }) ∧
  ((∀ (s : State), s.atRest → s.link.armed = true → s.cycle.fault = none →
     (s.busy = true ∨ s.cycle.state = .homing ∨ s.cycle.state = .measuring ∨ s.cycle.state = .cutting ∨
       s.cycle.state = .feeding ∨ s.cycle.state = .testcut) →
     ∃ t r, exec .linkClear s = .next t ∧ t.cycle.state = .halted ∧ t.cycle.fault = some r ∧ r.kind = .linkClear ∧
       r.stateAtEntry = s.cycle.state ∧ r.window = s.cycle.pointer ∧ r.followOn = 0 ∧ t.motion.queue = [] ∧
       t.motion.executing = false ∧ t.bed.feedDrive = false ∧ t.bed.toolKiss = none ∧ t.bed.toolThru = none ∧
       t.cycle.runActive = s.cycle.runActive ∧ t.motion.homed = s.motion.homed ∧
       t.link.outbound = [⟨0x61, 0, [0, 0], none⟩, faultNotice r]) ∧
   (∀ (s : State), s.atRest → s.link.armed = false → exec .linkClear s = .next s))

/-! ### The line and the queues of the link port -/

/-- LINK_LINE_RETURN_HIGH lets the next 10 ms of low line be a link clear again (R160); OUTBOUND_RECORD_SENT frees the
head's place and puts a link rate the record carries in force (R153, R158); an empty queue sends nothing (log 20).
SET_LINK: BAD_ARG above 3, NO_CHANGE for the rate held, else OK with the new rate on the reply alone: the rate
changes when the reply has been sent (R153). -/
def Obligations.LinkRateFollowsItsReply : Prop :=
  (∀ (s : State), s.atRest →
     exec .linkLineReturnHigh s = .next { s with link := { s.link with armed := true } } ∧
     (∀ r rest, s.link.outbound = r :: rest →
       exec .outboundRecordSent s =
         .next { s with link := { s.link with
           outbound := rest
           rate := r.rate.getD s.link.rate } }) ∧
     (s.link.outbound = [] → exec .outboundRecordSent s = .next s)) ∧
  (∀ (s : State) (tag code : Byte), s.ready →
     (3 < code.toNat → exec (.setLink tag code) s = .next (s.queueReply 0x03 tag .badArg [] none)) ∧
     (code.toNat = s.link.rate.val → exec (.setLink tag code) s = .next (s.queueReply 0x03 tag .noChange [] none)) ∧
     (∀ n : Fin 4, code.toNat = n.val → n ≠ s.link.rate →
       exec (.setLink tag code) s = .next (s.queueReply 0x03 tag .ok [] (some n))))

/-- LINK_BYTE_RECEIVED: the receiver byte by byte (R155). A gap ends a frame TRUNCATED and a short break ends it FRAMING,
with the body bytes received; hunting, neither has an effect (R155). -/
def Obligations.ReceiverTakesBytes : Prop :=
  (∀ (s : State) (b : Byte) (err : Bool), s.atRest →
     (s.link.receiver = .hunting → (b ≠ 0xA5 ∨ err = true) → exec (.linkByteReceived b err) s = .next s) ∧
     (s.link.receiver = .hunting → b = 0xA5 → err = false →
       exec (.linkByteReceived b err) s = .next { s with link := { s.link with receiver := .inFrame [] false } }) ∧
     (∀ e, s.link.receiver = .inFrame [] e →
       exec (.linkByteReceived b err) s = .next { s with link :=
         if b.toNat < 4 ∨ 244 < b.toNat then { s.link with receiver := .hunting }.enter [] (some .framing)
         else { s.link with receiver := .inFrame [b] (e || err) } }) ∧
     (∀ len got e, s.link.receiver = .inFrame (len :: got) e → 4 ≤ len.toNat → len.toNat ≤ 244 →
       (got.length + 1 < len.toNat + 2 →
         exec (.linkByteReceived b err) s =
           .next { s with link := { s.link with receiver := .inFrame (len :: got ++ [b]) (e || err) } }) ∧
       (∀ body hi, got = body ++ [hi] → body.length = len.toNat →
         exec (.linkByteReceived b err) s = .next { s with
           link := LinkPort.enter body
             (if (e || err) = true then some .framing
              else if hi ++ b = crc16 (len :: body) then none else some .check)
             { s.link with receiver := .hunting } }))) ∧
  (∀ (s : State), s.atRest →
     (s.link.receiver = .hunting → exec .frameGapExpiry s = .next s ∧ exec .shortBreak s = .next s) ∧
     (∀ bytes e, s.link.receiver = .inFrame bytes e →
       exec .frameGapExpiry s = .next { s with link :=
         { s.link with receiver := .hunting }.enter (bodyReceived bytes) (some .truncated) } ∧
       exec .shortBreak s = .next { s with link :=
         { s.link with receiver := .hunting }.enter (bodyReceived bytes) (some .framing) }) ∧
     bodyReceived [] = [] ∧ (∀ len got, bodyReceived (len :: got) = got.take len.toNat))

/-- The frame of a body, received from hunting without stop-bit errors, enters the inbound queue as that body with no
damage mark (R154, R155). -/
def Obligations.FrameIsReceivedWhole : Prop :=
  ∀ (l : LinkPort) (body : List Byte), l.receiver = .hunting → 4 ≤ body.length → body.length ≤ 244 →
    (frameOf body).foldl (fun m b => m.receive b false) l = l.enter body none

/-- What the link port reads from the record of a well-formed request is that request (R154, R162). -/
def Obligations.RequestsReadBack : Prop :=
  ∀ (i : Instr) (body : List Byte), i.wellFormed = true → requestBody i = some body → parseBody body = .request i

/-- RECORD_TAKE of an undamaged record without an overrun mark: the request it carries acts as its own row does, an
unlisted KIND is answered UNKNOWN_KIND, a wrong length BAD_LENGTH (R157 steps 3 to 5). RECORD_TAKE of a damaged record
queues LINK_ERROR under the room rule and no reply; an overrun mark's notice takes its own place first; a record waits
for one free place, or for two with a mark (R157, R164). An undamaged marked record, read or answered UNKNOWN_KIND or
BAD_LENGTH, does so behind its mark's notice. The model's choices: the notice of an overrun mark is LINK_ERROR with
payload [0, n, 0, 0], its KIND and TAG of a lost request 0 (log 9); the take is a command of its own, and one that finds
the queue empty leaves the state (log 3). -/
def Obligations.RecordTakeDelivers : Prop :=
  (∀ (s : State) (body : List Byte) (rest : List InRecord), s.ready → s.link.inbound = ⟨body, none, none⟩ :: rest →
     (∀ i, i.wellFormed = true → requestBody i = some body → ∃ t, exec .recordTake s = .next t ∧
       exec i { s with link := { s.link with inbound := rest } } = .next t) ∧
     (∀ kind tag payload, body = kind :: tag :: payload → parseBody body = .unknownKind →
       exec .recordTake s =
         .next ({ s with link := { s.link with inbound := rest } }.queueReply kind tag .unknownKind [] none)) ∧
     (∀ kind tag payload, body = kind :: tag :: payload → parseBody body = .badLength →
       exec .recordTake s =
         .next ({ s with link := { s.link with inbound := rest } }.queueReply kind tag .badLength [] none))) ∧
  (∀ (s : State), s.atRest →
     (s.link.inbound = [] → exec .recordTake s = .next s) ∧
     (∀ (body : List Byte) (damage : Option Damage) (mark : Option Nat) (rest : List InRecord),
       s.link.inbound = ⟨body, damage, mark⟩ :: rest →
       (24 < s.link.outbound.length + (if mark = none then 1 else 2) → exec .recordTake s = .next s) ∧
       (∀ d, damage = some d → mark = none → s.link.outbound.length < 24 →
         exec .recordTake s =
           .next (State.queueNotice (linkErrorNotice d.code 0 body) { s with link := { s.link with inbound := rest } })) ∧
       (∀ d n, damage = some d → mark = some n → s.link.outbound.length + 2 ≤ 24 →
         exec .recordTake s =
           .next (State.queueNotice (linkErrorNotice d.code 0 body) { s with link := { s.link with
             inbound := rest
             outbound := s.link.outbound ++ [⟨0x62, 0, [0, u8 n, 0, 0], none⟩] } })) ∧
       (∀ i n, damage = none → mark = some n → s.link.outbound.length + 2 ≤ 24 →
         i.wellFormed = true → requestBody i = some body → ∃ t,
           exec .recordTake s = .next t ∧
           exec i { s with link := { s.link with
             inbound := rest
             outbound := s.link.outbound ++ [⟨0x62, 0, [0, u8 n, 0, 0], none⟩] } } = .next t) ∧
       (∀ n kind tag payload, damage = none → mark = some n → s.link.outbound.length + 2 ≤ 24 →
         body = kind :: tag :: payload →
         let reported : State := { s with link := { s.link with
           inbound := rest
           outbound := s.link.outbound ++ [⟨0x62, 0, [0, u8 n, 0, 0], none⟩] } }
         (parseBody body = .unknownKind →
           exec .recordTake s = .next (reported.queueReply kind tag .unknownKind [] none)) ∧
         (parseBody body = .badLength →
           exec .recordTake s = .next (reported.queueReply kind tag .badLength [] none)))))

/-- A record that completes enters the inbound queue with the overrun mark, or is discarded and counted up to 255
(R156). The room rule of notices (R158): queued when at least 2 places remain free after it (4 for WATCH), else dropped
with NOTICES_DROPPED set. With the outbound queue full a request's own row enters the inbound queue by R156, as a record
received (R157's first paragraph; that the row does so is the model's choice, log 2). -/
def Obligations.QueueRoomRules : Prop :=
  (∀ (l : LinkPort) (body : List Byte) (damage : Option Damage),
     (l.inbound.length < 8 → l.enter body damage =
       { l with
         inbound := l.inbound ++ [⟨body, damage, if l.overrun = 0 then none else some l.overrun⟩]
         overrun := 0 }) ∧
     (8 ≤ l.inbound.length → l.overrun ≤ 255 →
       l.enter body damage = { l with overrun := if l.overrun < 255 then l.overrun + 1 else 255 })) ∧
  (∀ (l : LinkPort) (n : OutRecord),
     l.queueNotice n = (if l.outbound.length + 1 + 2 ≤ 24 then { l with outbound := l.outbound ++ [n] }
       else { l with dropped := true }) ∧
     l.queueWatch n = (if l.outbound.length + 1 + 4 ≤ 24 then { l with outbound := l.outbound ++ [n] }
       else { l with dropped := true })) ∧
  (∀ (s : State) (i : Instr) (body : List Byte), s.atRest → 24 ≤ s.link.outbound.length → requestBody i = some body →
     exec i s = .next { s with link := s.link.enter body none })

/-! ### Replies -/

/-- A reply carries the request's KIND with its high bit set, its TAG, the status, the cycle state and the six flags
of the digest, then the data; queuing it clears NOTICES_DROPPED and changes nothing else (R154, R158, R163). -/
def Obligations.ReplyCarriesStatusAndDigest : Prop :=
  ∀ (s : State) (kind tag : Byte) (status : Status) (data : List Byte) (rate : Option (Fin 4)), ∃ flags : Byte,
    s.queueReply kind tag status data rate = { s with link := { s.link with
      outbound := s.link.outbound ++
        [⟨kind ||| 0x80, tag, status.code :: BitVec.ofNat 8 s.cycle.state.code :: flags :: data, rate⟩]
      dropped := false } } ∧
    flags.getLsbD 0 = s.cycle.fault.isSome ∧ flags.getLsbD 1 = s.store.loader.isSome ∧
    flags.getLsbD 2 = s.nest.run.isSome ∧ flags.getLsbD 3 = s.motion.homed ∧ flags.getLsbD 4 = s.link.dropped ∧
    flags.getLsbD 5 = (s.cycle.reasons.request || s.cycle.reasons.step || s.cycle.reasons.brk) ∧
    flags.getLsbD 6 = false ∧ flags.getLsbD 7 = false

/-- R159: LINK_TEST is refused BAD_LENGTH outside 2 to 239 bytes and is else answered OK with its payload byte for byte
in a reply body of at most 244 bytes; it changes nothing. -/
def Obligations.LinkTestEchoes : Prop :=
  ∀ (s : State) (tag : Byte) (payload : List Byte), s.ready →
    ((payload.length < 2 ∨ 239 < payload.length) →
      exec (.linkTest tag payload) s = .next (s.queueReply 0x02 tag .badLength [] none)) ∧
    (2 ≤ payload.length → payload.length ≤ 239 →
      exec (.linkTest tag payload) s = .next (s.queueReply 0x02 tag .ok payload none) ∧
      (replyRecord 0x02 tag .ok payload none s).payload = Status.ok.code :: s.digest ++ payload ∧
      2 + (replyRecord 0x02 tag .ok payload none s).payload.length ≤ 244)

/-- The widths of chapter 10: the panel entry 54 bytes for a label of at most 12, mark 32, item 34, fault record 28,
band 12, STATUS 42, IDENT 66, INPUTS 32 (R166, R169 to R171). IDENT and STATUS are answered OK with their records,
GET_PARAM with the value held or BAD_ARG, in every state, and change nothing (R165, R169, R171). The STATUS data and the
capability record field by field, each number most significant byte first, a signed one in two's complement (R169,
R171). So are the panel, mark, item, fault record and band entries (R170, R171; the detail code's 0x80 for MOTION_LIMIT
alone is log 18). A number beyond its field is sent modulo the field (log 17). -/
def Obligations.ReadsAndTheirWidths : Prop :=
  (∀ (s : State) (n : Nat) (p : Panel) (row : Nat) (side : Side) (m : Mark) (it : Item) (r : FaultRecord)
     (g : Geometry),
     (p.label.length ≤ 12 → (panelEntry n p).length = 54) ∧ (markEntry s.nest.params row side m).length = 32 ∧
     (itemEntry n it).length = 34 ∧ (faultEntryBytes r).length = 28 ∧ (bandEntry s.marks n g).length = 12 ∧
     (statusData s).length = 42 ∧ (identData s).length = 66 ∧ (inputsEntry s.bed).length = 32) ∧
  (∀ (s : State) (tag param index : Byte), s.ready →
     exec (.ident tag) s = .next (s.queueReply 0x01 tag .ok (identData s) none) ∧
     exec (.status tag) s = .next (s.queueReply 0x0B tag .ok (statusData s) none) ∧
     exec (.getParam tag param index) s = .next (match s.paramValue param index with
       | some v => s.queueReply 0x05 tag .ok (be32 v) none
       | none => s.queueReply 0x05 tag .badArg [] none)) ∧
  (∀ (s : State),
     let d := statusData s
     let field (n k : Nat) : Nat := ((d.drop k).take n).foldl (fun a b => 256 * a + b.toNat) 0
     let flag (b : Bool) (n : Nat) : Nat := if b = true then n else 0
     let reasons (r : Reasons) : Nat := flag r.request 1 + flag r.step 2 + flag r.brk 4
     field 1 0 = (match s.cycle.state with
       | .idle => 0 | .homing => 1 | .measuring => 2 | .cutting => 3 | .feeding => 4 | .suspended => 5 | .held => 6
       | .halted => 7 | .testcut => 8) ∧
     field 1 1 = (if s.cycle.state = .measuring ∧ s.cycle.phase = .readying then 1 else 0) ∧
     field 1 2 = (match s.cycle.hold with
       | none => 0 | some .markMissed => 1 | some .markGeometry => 2 | some .seamDeviation => 3 | some .planFull => 4
       | some .recover => 5) ∧
     field 1 3 = reasons s.cycle.reasons ∧
     (s.cycle.taken = none → field 1 4 = 0 ∧ field 1 5 = 0) ∧
     (∀ taken, s.cycle.taken = some taken → field 1 4 = reasons taken.reasons ∧
       field 1 5 = (match taken.resume with | .settle => 0 | .continue => 1 | .feed => 2)) ∧
     field 1 6 = flag s.cycle.stopPending 1 + flag s.cycle.runActive 2 + flag s.motion.head.isSome 4 ∧
     field 1 7 = s.cycle.pointer % 256 ∧ field 1 8 = s.windowCount % 256 ∧ field 1 9 = s.cycle.owed % 256 ∧
     (field 4 10 : Int) = s.cycle.remainder % 4294967296 ∧ field 1 14 = s.motion.queue.length % 256 ∧
     (s.motion.executing = false → field 1 15 = 255) ∧
     (∀ e rest, s.motion.executing = true → s.motion.queue = e :: rest → field 1 15 = (match e with
       | .travel _ _ => 0 | .cut _ _ _ => 1 | .search _ => 2 | .home => 3 | .feed _ => 4)) ∧
     (s.motion.head = none → field 8 16 = 0) ∧
     (∀ h, s.motion.head = some h → (field 4 16 : Int) = h.x % 4294967296 ∧ (field 4 20 : Int) = h.y % 4294967296) ∧
     field 1 24 = (if s.motion.kiss = .lowered then 1 else 0) + (if s.motion.thru = .lowered then 2 else 0) ∧
     field 1 25 = flag (s.bed.zones.get 0) 1 + flag (s.bed.zones.get 1) 2 + flag (s.bed.zones.get 2) 4 +
       flag (s.bed.zones.get 3) 8 + flag s.bed.feedDrive 16 + flag s.bed.beacon 32 ∧
     field 2 26 = s.bed.toolKiss.getD 0 % 65536 ∧ field 2 28 = s.bed.toolThru.getD 0 % 65536 ∧
     (field 4 30 : Int) = s.motion.encoder % 4294967296 ∧ field 1 34 = s.link.inbound.length % 256 ∧
     field 1 35 = s.link.outbound.length % 256 ∧ field 1 36 = s.link.overrun % 256 ∧
     field 1 37 = flag s.nest.run.isSome 1 ∧ field 2 38 = s.store.free.length % 65536 ∧
     field 1 40 = s.marks.rows.length % 256 ∧ field 1 41 = 0) ∧
  (∀ (s : State),
     let d := identData s
     let field (n k : Nat) : Nat := ((d.drop k).take n).foldl (fun a b => 256 * a + b.toNat) 0
     field 2 0 = 0x4D4B ∧ field 2 2 = 0x0096 ∧ field 1 4 = 1 ∧ field 1 5 = 0 ∧ field 2 6 = 96 ∧ field 2 8 = 512 ∧
     field 2 10 = 32 ∧ field 2 12 = 3 ∧ field 2 14 = 4096 ∧ field 2 16 = 100 ∧ field 2 18 = 99 ∧ field 2 20 = 194 ∧
     field 2 22 = 256 ∧ field 2 24 = 32 ∧ field 2 26 = 8 ∧ field 2 28 = 24 ∧ field 2 30 = 4 ∧ field 2 32 = 4 ∧
     field 2 34 = 244 ∧ field 2 36 = 1 ∧ field 2 38 = 28 ∧ field 2 40 = 12 ∧ field 2 42 = 4 ∧ field 4 44 = 65000 ∧
     field 4 48 = 165000 ∧ field 4 52 = 260000 ∧ field 4 56 = 2000 ∧ field 4 60 = 10000 ∧
     field 2 64 = s.store.free.length % 65536) ∧
  (∀ (n : Nat) (p : Panel),
     let d := panelEntry n p
     let field (n k : Nat) : Nat := ((d.drop k).take n).foldl (fun a b => 256 * a + b.toNat) 0
     let flag (b : Bool) (n : Nat) : Nat := if b = true then n else 0
     field 1 0 = n % 256 ∧
     field 1 1 = (match p.state with
       | .empty => 0 | .loading => 1 | .loaded => 2 | .placed => 3 | .cutting => 4 | .cut => 5 | .skipped => 6) ∧
     field 1 2 = (match p.lock with | .free => 0 | .pinned => 1 | .committed => 2) ∧
     field 1 3 = flag p.bbox.isSome 1 + flag p.placement.isSome 2 + flag p.windowsLeft.isSome 4 + flag p.weed 8 +
       flag p.rotateOk 16 ∧
     field 1 4 = (match p.tool with | .kiss => 0 | .thru => 1) ∧ field 1 5 = p.order % 256 ∧
     field 1 6 = p.passes % 256 ∧
     field 1 7 = (match p.outcome with | .none => 0 | .placed => 1 | .unfit => 2 | .noRoom => 3 | .fixed => 4) ∧
     field 2 8 = p.bleed % 65536 ∧ field 2 10 = p.vertexCount % 65536 ∧
     (p.bbox = none → field 16 12 = 0) ∧
     (∀ b, p.bbox = some b → field 4 12 = b.minU % 4294967296 ∧ field 4 16 = b.minV % 4294967296 ∧
       field 4 20 = b.width % 4294967296 ∧ field 4 24 = b.height % 4294967296) ∧
     (p.placement = none → field 9 28 = 0) ∧
     (∀ pl, p.placement = some pl → field 4 28 = pl.x % 4294967296 ∧ field 4 32 = pl.y % 4294967296 ∧
       field 1 36 = (match pl.rotation with | .r0 => 0 | .r90 => 90)) ∧
     field 1 37 = p.windowsLeft.getD 0 % 256 ∧ field 2 38 = p.chain.length % 65536 ∧
     field 1 40 = p.label.length % 256 ∧ field 1 41 = 0 ∧
     (∀ j, j < 12 → p.label.length ≤ 12 → d[42 + j]? = some (p.label.getD j 0))) ∧
  (∀ (lp : LayoutParams) (row : Nat) (side : Side) (m : Mark) (index : Nat) (it : Item),
     let field (d : List Byte) (n k : Nat) : Nat := ((d.drop k).take n).foldl (fun a b => 256 * a + b.toNat) 0
     let flag (b : Bool) (n : Nat) : Nat := if b = true then n else 0
     let d := markEntry lp row side m
     let e := itemEntry index it
     let pos (k : Nat) (q : BedPos) : Prop :=
       (field d 4 k : Int) = q.x % 4294967296 ∧ (field d 4 (k + 4) : Int) = q.y % 4294967296
     let point (k : Nat) (v : Vertex) : Prop :=
       field e 4 k = v.u % 4294967296 ∧ field e 4 (k + 4) = v.v % 4294967296
     field d 1 0 = row % 256 ∧ field d 1 1 = (match side with | .left => 0 | .right => 1) ∧
     field d 1 2 = (match m.state with | .unread => 0 | .read => 1 | .missed => 2 | .set => 3) ∧
     field d 1 3 = flag m.measured.isSome 1 + flag m.previous.isSome 2 ∧ field d 1 4 = m.attempts % 256 ∧
     field d 1 7 = 0 ∧ field d 4 8 = (match side with | .left => lp.uLeft | .right => lp.uRight) % 4294967296 ∧
     field d 4 12 = (lp.lead + row * lp.markPitch) % 4294967296 ∧
     (m.measured = none → field d 1 5 = 0 ∧ field d 8 16 = 0) ∧
     (∀ q, m.measured = some q → field d 1 5 = q.window % 256 ∧ pos 16 q.pos) ∧
     (m.previous = none → field d 1 6 = 0 ∧ field d 8 24 = 0) ∧
     (∀ q, m.previous = some q → field d 1 6 = q.window % 256 ∧ pos 24 q.pos) ∧
     field e 2 0 = index % 65536 ∧ field e 1 2 = it.slot.val ∧
     field e 1 3 = (match it.kind with | .weed => 0 | .outline => 1) ∧
     field e 1 4 = (match it.tool with | .kiss => 0 | .thru => 1) ∧
     field e 1 5 = (match it.state with | .pending => 0 | .active => 1 | .done => 2 | .skipped => 3) ∧
     field e 1 6 = it.passes % 256 ∧ field e 1 7 = it.passDone % 256 ∧ field e 2 8 = it.segDone % 65536 ∧
     field e 2 10 = it.segments % 65536 ∧ field e 2 12 = it.first % 65536 ∧ field e 2 14 = it.last % 65536 ∧
     (it.entry = none → field e 8 16 = 0) ∧ (∀ v, it.entry = some v → point 16 v) ∧
     (it.exit = none → field e 8 24 = 0) ∧ (∀ v, it.exit = some v → point 24 v) ∧
     field e 1 32 = flag it.entry.isSome 1 + flag it.exit.isSome 2 ∧ field e 1 33 = 0) ∧
  (∀ (r : FaultRecord) (mu : MarkUnit) (i : Nat) (g : Geometry),
     let field (d : List Byte) (n k : Nat) : Nat := ((d.drop k).take n).foldl (fun a b => 256 * a + b.toNat) 0
     let flag (b : Bool) (n : Nat) : Nat := if b = true then n else 0
     let kindCode (k : FaultKind) : Nat := match k with
       | .estop => 1 | .guard => 2 | .vacuumLost => 3 | .mediaSlip => 4 | .mediaEnd => 5 | .motionLimit => 6
       | .homeFail => 7 | .linkClear => 8
     let entryCode (k : EntryKind) : Nat := match k with
       | .travel => 0 | .cut => 1 | .search => 2 | .home => 3 | .feed => 4
     let d := faultEntryBytes r
     let b := bandEntry mu i g
     let details (code : Nat) (x y : Int) : Prop := field d 1 3 = code ∧ (field d 4 20 : Int) = x % 4294967296 ∧
       (field d 4 24 : Int) = y % 4294967296
     field d 1 0 = kindCode r.kind ∧ field d 1 1 = r.stateAtEntry.code ∧
     field d 1 2 = (match r.qualifier with
       | .none => 0
       | .hold h => holdCode (some h)
       | .resume p => (match p with | .settle => 0 | .continue => 1 | .feed => 2)
       | .testReturn st => st.code) ∧
     (match r.detail with
       | .none => details 0 0 0
       | .guard e => details (entryCode e) 0 0
       | .vacuum settle => details (flag settle 1) 0 0
       | .slip tolerance commanded count => details (flag tolerance 1) commanded count
       | .mediaEnd during commanded count => details (flag during 1) commanded count
       | .limit e target unhomed => details (entryCode e + flag unhomed 128) target.x target.y
       | .axis a => details (if a = .x then 0 else 1) 0 0) ∧
     field d 1 4 = r.window % 256 ∧ field d 1 5 = r.followOn % 256 ∧
     (r.lastFollowOn = none → field d 1 6 = 0) ∧ (∀ k, r.lastFollowOn = some k → field d 1 6 = kindCode k) ∧
     field d 1 7 = flag r.itemSlot.isSome 1 + flag r.head.isSome 2 ∧ field d 1 11 = 0 ∧
     (r.itemSlot = none → field d 3 8 = 0) ∧
     (∀ q, r.itemSlot = some q → field d 2 8 = q.1 % 65536 ∧ field d 1 10 = q.2.val) ∧
     (r.head = none → field d 8 12 = 0) ∧
     (∀ h, r.head = some h → (field d 4 12 : Int) = h.x % 4294967296 ∧ (field d 4 16 : Int) = h.y % 4294967296) ∧
     field b 1 0 = i % 256 ∧ field b 1 3 = flag (mu.usable i) 1 ∧
     (g = .unchecked → field b 2 1 = 0 ∧ field b 4 8 = 0) ∧ (g = .ok → field b 1 1 = 1 ∧ field b 1 2 = 0 ∧
       field b 4 8 = 0) ∧
     (∀ kind ppm, g = .fail kind ppm → field b 1 1 = 2 ∧ field b 4 8 = ppm % 4294967296 ∧
       field b 1 2 = (match kind with | .lowerWidth => 0 | .upperWidth => 1 | .leftHeight => 2 | .rightHeight => 3)) ∧
     (∀ x y, mu.rows[i]? = some x → mu.rows[i + 1]? = some y → field b 1 4 = x.left.state.code ∧
       field b 1 5 = x.right.state.code ∧ field b 1 6 = y.left.state.code ∧ field b 1 7 = y.right.state.code))

/-- A table read that names an index of a table, INPUTS at 1 and above: at most `max` entries, at most what 234 bytes
hold, none beyond the table's end, each as it stands; END in the count's high bit; the cursor behind the last, which
keeps whether END was given (R166, R167). READ_NEXT goes on from the cursor in the same way, after END returns no entry
and END whatever the table holds by then, and with no cursor returns no entry and END. The model's choices: the header
of zeros of a READ_NEXT with no cursor (log 9), and the index a read returning no entry leaves the cursor at, the one it
asked for (log 33). READ_TABLE(INPUTS) returns the one entry as it stands with END and empties the change set; a
READ_NEXT behind it returns no entry and END and does not empty the set again (R135). -/
def Obligations.TableReads : Prop :=
  (∀ (s : State) (tag max : Byte), s.ready →
     (∀ table qualifier start, max = 0 ∨ cursorOf table qualifier start = none →
       exec (.readTable tag table qualifier start max) s = .next (s.queueReply 0x06 tag .badArg [] none)) ∧
     (∀ table qualifier start c, max ≠ 0 → cursorOf table qualifier start = some c →
       (c.table = .inputs → 1 ≤ c.index) →
       let n := min (min max.toNat (234 / c.entryWidth)) (s.tableSize c - c.index)
       exec (.readTable tag table qualifier start max) s =
         .next ({ s with link := { s.link with cursor := some { c with
           index := c.index + n, ended := decide (s.tableSize c ≤ c.index + n) } } }.queueReply 0x06 tag .ok
           (readHeader c.table.code c.qualifier c.index n (decide (s.tableSize c ≤ c.index + n)) ++
             (List.range n).flatMap fun d => s.tableEntry c (c.index + d)) none)) ∧
     (max = 0 → exec (.readNext tag max) s = .next (s.queueReply 0x07 tag .badArg [] none)) ∧
     (max ≠ 0 → s.link.cursor = none →
       exec (.readNext tag max) s = .next (s.queueReply 0x07 tag .ok [0, 0, 0, 0, 0x80] none)) ∧
     (∀ c, max ≠ 0 → s.link.cursor = some c → c.ended = true →
       exec (.readNext tag max) s =
         .next (s.queueReply 0x07 tag .ok ([u8 c.table.code, u8 c.qualifier] ++ be16 c.index ++ [0x80]) none)) ∧
     (∀ c, max ≠ 0 → s.link.cursor = some c → c.ended = false → (c.table = .inputs → 1 ≤ c.index) →
       let n := min (min max.toNat (234 / c.entryWidth)) (s.tableSize c - c.index)
       exec (.readNext tag max) s =
         .next ({ s with link := { s.link with cursor := some { c with
           index := c.index + n, ended := decide (s.tableSize c ≤ c.index + n) } } }.queueReply 0x07 tag .ok
           (readHeader c.table.code c.qualifier c.index n (decide (s.tableSize c ≤ c.index + n)) ++
             (List.range n).flatMap fun d => s.tableEntry c (c.index + d)) none))) ∧
  (∀ (s : State) (tag max : Byte), s.ready → max ≠ 0 →
     (∃ t : State, exec (.readTable tag 5 0 0 max) s =
         .next (t.queueReply 0x06 tag .ok ([5, 0, 0, 0, 0x81] ++ inputsEntry s.bed) none) ∧
       t.link = { s.link with cursor := some ⟨.inputs, 0, 0, 1, true⟩ } ∧
       t.bed = { s.bed with lines := t.bed.lines } ∧
       (∀ i, t.bed.lines.get i = { s.bed.lines.get i with riseChange := false, fallChange := false }) ∧
       t = { s with link := t.link, bed := t.bed }) ∧
     (s.link.cursor = some ⟨.inputs, 0, 0, 1, true⟩ →
       exec (.readNext tag max) s = .next (s.queueReply 0x07 tag .ok [5, 0, 0, 1, 0x80] none)))

/-- WATCH: BAD_ARG for an unknown item, a period outside 100 to 10,000 with an item other than OFF, a slot above 95 with
PANEL; else written, the timer restarted or stopped; WATCH_EXPIRY queues one notice under its room rule and restarts the
timer (R158, R168); a stopped timer does not expire (log 20). The contents of the notice item by item (R168, R171; the
panel entry is R170's; a number beyond its field modulo the field, log 17). -/
def Obligations.WatchAndItsTimer : Prop :=
  (∀ (s : State),
     (∀ (tag item slot : Byte) (period : Half), s.ready →
       ((4 < item.toNat ∨ (item ≠ 0 ∧ (period.toNat < 100 ∨ 10000 < period.toNat)) ∨ (item = 4 ∧ 95 < slot.toNat)) →
         exec (.watch tag item slot period) s = .next (s.queueReply 0x08 tag .badArg [] none)) ∧
       (∀ w : WatchItem, w.code = item.toNat → (w ≠ .off → 100 ≤ period.toNat ∧ period.toNat ≤ 10000) →
         (w = .panel → slot.toNat ≤ 95) →
         exec (.watch tag item slot period) s = .next ({ s with link := { s.link with
           watch := ⟨w, slot, period.toNat⟩
           watchTimer := if w = WatchItem.off then none else some period.toNat } }.queueReply 0x08 tag .ok [] none))) ∧
     (s.atRest → s.link.watchTimer = none → exec .watchExpiry s = .next s) ∧
     (s.atRest → s.link.watchTimer.isSome = true →
       exec .watchExpiry s = .next { s with link := { s.link with
         outbound := if s.link.outbound.length + 5 ≤ 24 then
             s.link.outbound ++ [⟨0x6A, 0, padTo 2 (u8 s.link.watch.item.code :: watchContents s), none⟩]
           else s.link.outbound
         dropped := s.link.dropped || decide (24 < s.link.outbound.length + 5)
         watchTimer := some s.link.watch.period } })) ∧
  (∀ (s : State),
     let d := watchContents s
     let item := s.link.watch.item
     let field (n k : Nat) : Nat := ((d.drop k).take n).foldl (fun a b => 256 * a + b.toNat) 0
     let flag (b : Bool) (n : Nat) : Nat := if b = true then n else 0
     (item = .off → d = []) ∧
     (item = .position → d.length = 10 ∧ field 1 0 = flag s.motion.homed 1 + flag s.motion.head.isSome 2 ∧
       field 1 1 = (if s.motion.kiss = .lowered then 1 else 0) + (if s.motion.thru = .lowered then 2 else 0) ∧
       (s.motion.head = none → field 8 2 = 0) ∧
       (∀ h, s.motion.head = some h → (field 4 2 : Int) = h.x % 4294967296 ∧
         (field 4 6 : Int) = h.y % 4294967296)) ∧
     (item = .cycle → d.length = 8 ∧ field 1 0 = s.cycle.state.code ∧
       field 1 1 = (if s.cycle.state = .measuring ∧ s.cycle.phase = .readying then 1 else 0) ∧
       field 1 2 = holdCode s.cycle.hold ∧ field 1 3 = s.cycle.pointer % 256 ∧ field 1 4 = s.windowCount % 256 ∧
       (s.plan.worklist = none → field 1 5 = 0 ∧ field 2 6 = 0) ∧
       (∀ w, s.plan.worklist = some w → (∀ a ∈ w.items, ¬ (a.state = .pending ∨ a.state = .active)) →
         field 1 5 = 0 ∧ field 2 6 = 0) ∧
       (∀ w i it, s.plan.worklist = some w → w.items[i]? = some it → (it.state = .pending ∨ it.state = .active) →
         (∀ a ∈ w.items.take i, ¬ (a.state = .pending ∨ a.state = .active)) →
         field 1 5 = 1 ∧ field 2 6 = i % 65536)) ∧
     (item = .queues → d.length = 8 ∧ field 1 0 = s.link.inbound.length % 256 ∧
       field 1 1 = s.link.outbound.length % 256 ∧ field 1 2 = s.motion.queue.length % 256 ∧ field 1 3 = 0 ∧
       (s.plan.worklist = none → field 2 4 = 0) ∧
       (∀ w, s.plan.worklist = some w → field 2 4 = w.items.length % 65536) ∧
       field 2 6 = s.store.free.length % 65536) ∧
     (item = .panel → ∀ i : Slot, s.link.watch.slot.toNat = i.val → d = panelEntry i.val (s.panel i)))

/-! ### Parameters -/

/-- SET_PARAM of the planner's, the mark unit's, the motion unit's and VAC_SETTLE's parameters, in every state: BAD_ARG
outside the range, NO_CHANGE for the value held, else written with the new value in the reply; no other parameter and
nothing else changes (R54, R73, R93, R122, R165). A parameter code or an index that the table does not list is BAD_ARG
(R165). VAC_SAFE of a zone, and RISE_EN, FALL_EN and FILTER of a line, are written in the same way (R133, R143); a
FILTER written while the wire is off the taken level starts its timer again, and FILTER NONE takes the level at once,
stated for KEY, which acts on no unit (R132, R133, R139; its INPUT notice stands behind the reply, log 6). -/
def Obligations.RangeParametersWritten : Prop :=
  (∀ (s : State) (tag code : Byte) (lo hi : Nat) (value : Word), s.ready →
     (code, lo, hi) ∈ rangeParams →
     ((value.toInt < lo ∨ hi < value.toInt) →
       exec (.setParam tag code 0 value) s = .next (s.queueReply 0x04 tag .badArg [] none)) ∧
     (∀ held, s.paramValue code 0 = some held → lo ≤ held → held ≤ hi → value.toInt = held →
       exec (.setParam tag code 0 value) s = .next (s.queueReply 0x04 tag .noChange [] none)) ∧
     (lo ≤ value.toInt → value.toInt ≤ hi → s.paramValue code 0 ≠ some value.toNat → ∃ t : State,
       exec (.setParam tag code 0 value) s = .next (t.queueReply 0x04 tag .ok (wordBytes value) none) ∧
       t.paramValue code 0 = some value.toNat ∧
       (∀ other index, (other ≠ code ∨ index ≠ 0) → t.paramValue other index = s.paramValue other index) ∧
       t = { s with
         plan := { s.plan with
           weedDistance := t.plan.weedDistance, kissPasses := t.plan.kissPasses, thruPasses := t.plan.thruPasses }
         marks := { s.marks with
           searchSize := t.marks.searchSize, geomTol := t.marks.geomTol, seamTol := t.marks.seamTol }
         cycle := { s.cycle with vacSettle := t.cycle.vacSettle }
         motion := { s.motion with params := t.motion.params } })) ∧
  (∀ (s : State) (tag code index : Byte) (value : Word), s.ready →
     (∀ row ∈ parameterIndices, ¬ (row.1 = code ∧ row.2.1 ≤ index.toNat ∧ index.toNat ≤ row.2.2)) →
     exec (.setParam tag code index value) s = .next (s.queueReply 0x04 tag .badArg [] none)) ∧
  (∀ (s : State) (tag index : Byte) (value : Word) (z : Fin 4), s.ready → index.toNat = z.val →
     let answer (status : Status) : Prop :=
       exec (.setParam tag 0x30 index value) s = .next (s.queueReply 0x04 tag status [] none)
     ((value.toInt < 0 ∨ 1 < value.toInt) → answer .badArg) ∧
     (∀ v : VacSafe, value.toInt = (if v = VacSafe.hold then 0 else 1) →
       (s.bed.vacSafe.get z = v → answer .noChange) ∧
       (s.bed.vacSafe.get z ≠ v → exec (.setParam tag 0x30 index value) s =
         .next ({ s with bed := { s.bed with vacSafe := s.bed.vacSafe.set z v } }.queueReply 0x04 tag .ok (wordBytes value)
           none)))) ∧
  (∀ (s : State) (tag index : Byte) (value : Word) (i : Fin 8), s.ready → index.toNat = i.val →
     let l := s.bed.lines.get i
     let withLine (m : Line) : State := { s with bed := { s.bed with lines := s.bed.lines.set i m } }
     let answer (code : Byte) (status : Status) : Prop :=
       exec (.setParam tag code index value) s = .next (s.queueReply 0x04 tag status [] none)
     let written (code : Byte) (m : Line) : Prop :=
       exec (.setParam tag code index value) s = .next ((withLine m).queueReply 0x04 tag .ok (wordBytes value) none)
     ((value.toInt < 0 ∨ 1 < value.toInt) → answer 0x32 .badArg ∧ answer 0x33 .badArg) ∧
     (∀ on : Bool, value.toInt = (if on = true then 1 else 0) →
       (l.riseEn = on → answer 0x32 .noChange) ∧ (l.riseEn ≠ on → written 0x32 { l with riseEn := on }) ∧
       (l.fallEn = on → answer 0x33 .noChange) ∧ (l.fallEn ≠ on → written 0x33 { l with fallEn := on })) ∧
     (i ≠ 0 →
       ((value.toInt < 0 ∨ 3 < value.toInt) → answer 0x31 .badArg) ∧
       (∀ f : Filter, value.toInt = (match f with | .none => 0 | .f2 => 1 | .f8 => 2 | .f32 => 3) →
         (l.filter = f → answer 0x31 .noChange) ∧
         (l.filter ≠ f → l.wire = l.taken → written 0x31 { l with filter := f, timer := none }) ∧
         (l.filter ≠ f → l.wire ≠ l.taken → f ≠ .none →
           written 0x31 { l with
             filter := f, timer := some (match f with | .none => 0 | .f2 => 2 | .f8 => 8 | .f32 => 32) }) ∧
         (l.filter ≠ f → l.wire ≠ l.taken → f = .none → i = 4 →
           let enabled := if l.wire then l.riseEn else l.fallEn
           let t := withLine { l with
             filter := f, taken := l.wire, timer := none, riseChange := l.riseChange || (l.wire && l.riseEn)
             fallChange := l.fallChange || (!l.wire && l.fallEn) }
           let u := t.queueReply 0x04 tag .ok (wordBytes value) none
           exec (.setParam tag 0x31 index value) s = .next (if enabled = true then
             State.queueNotice ⟨0x69, 0, [4, if l.wire then 0 else 1, if l.wire then 1 else 0, u8 t.levels], none⟩ u
             else u)))))

/-- SET_PARAM of the six layout parameters: NEST_BUSY, BAD_ARG outside the range or where MARK_PITCH would exceed
WINDOW_LENGTH, LOCKED while a placement is held, NO_CHANGE for the value held, else written (R24). -/
def Obligations.LayoutParametersLocked : Prop :=
  ∀ (s : State) (tag : Byte) (value : Word), s.ready →
    let lp := s.nest.params
    let placed := ∃ i, (s.panel i).placement ≠ none
    let answers (code : Byte) (lo hi held : Nat) (clash : Prop) (new : LayoutParams) : Prop :=
      (s.nest.run ≠ none → exec (.setParam tag code 0 value) s = .next (s.queueReply 0x04 tag .nestBusy [] none)) ∧
      (s.nest.run = none → (value.toInt < lo ∨ hi < value.toInt ∨ clash) →
        exec (.setParam tag code 0 value) s = .next (s.queueReply 0x04 tag .badArg [] none)) ∧
      (s.nest.run = none → lo ≤ value.toInt → value.toInt ≤ hi → ¬ clash →
        (placed → exec (.setParam tag code 0 value) s = .next (s.queueReply 0x04 tag .locked [] none)) ∧
        (¬ placed → value.toInt = held →
          exec (.setParam tag code 0 value) s = .next (s.queueReply 0x04 tag .noChange [] none)) ∧
        (¬ placed → value.toInt ≠ held →
          exec (.setParam tag code 0 value) s =
            .next ({ s with nest := { s.nest with params := new } }.queueReply 0x04 tag .ok (wordBytes value) none)))
    let n := value.toNat
    answers 0x01 30000 162000 lp.mediaWidth False { lp with mediaWidth := n } ∧
    answers 0x02 500 5000 lp.marginSide False { lp with marginSide := n } ∧
    answers 0x03 1000 50000 lp.lead False { lp with lead := n } ∧
    answers 0x04 25000 100000 lp.markPitch (lp.windowLength < n) { lp with markPitch := n } ∧
    answers 0x05 50000 250000 lp.windowLength (n < lp.markPitch) { lp with windowLength := n } ∧
    answers 0x06 0 5000 lp.gap False { lp with gap := n }

/-! ### The panel store -/

/-- OPEN_OUTLINE that passes: the head of the free list becomes the chain, the slot LOADING with its settings, the
loader open (R12). The reply's data, the blocks reserved as two counts of 2 bytes, are the model's reading of R163 (log
9). OPEN_OUTLINE's checks in order: NEST_BUSY, OUTLINE_OPEN, BAD_ARG for the slot, REFUSED_STATE, NO_SPACE with the two
counts; a refusal changes nothing (R11). -/
def Obligations.OpenOutlineReserves : Prop :=
  (∀ (s : State) (tag slot : Byte) (n bleed : Half) (tool flags order passes : Byte) (label : List Byte) (i : Slot)
     (t : Tool), s.ready → s.nest.run = none → s.store.loader = none → slot.toNat = i.val → tool.toNat = t.code →
     3 ≤ n.toNat → n.toNat ≤ 4096 → bleed.toNat ≤ 5000 → flags.toNat < 4 → passes.toNat ≤ 4 →
     label.length ≤ 12 → (∀ c ∈ label, 0x20 ≤ c.toNat ∧ c.toNat ≤ 0x7E) → (s.panel i).state = .empty →
     (n.toNat + 31) / 32 ≤ s.store.free.length →
     exec (.openOutline tag slot n bleed tool flags order passes label) s =
       .next ({ s with store := { s.store with
         free := s.store.free.drop ((n.toNat + 31) / 32)
         loader := some ⟨i, n.toNat, 0, none⟩
         panels := s.store.panels.set i
           ⟨.loading, .free, label, t, flags.getLsbD 0, flags.getLsbD 1, order.toNat, passes.toNat, bleed.toNat,
             n.toNat, none, none, .none, none, s.store.free.take ((n.toNat + 31) / 32)⟩ } }.queueReply 0x10 tag .ok
           (be16 ((n.toNat + 31) / 32) ++ be16 (s.store.free.length - (n.toNat + 31) / 32)) none)) ∧
  (∀ (s : State) (tag slot : Byte) (n bleed : Half) (tool flags order passes : Byte) (label : List Byte),
     s.ready → label.length ≤ 12 →
     let answer (status : Status) (data : List Byte) : Prop :=
       exec (.openOutline tag slot n bleed tool flags order passes label) s =
         .next (s.queueReply 0x10 tag status data none)
     (s.nest.run ≠ none → answer .nestBusy []) ∧
     (s.nest.run = none → s.store.loader ≠ none → answer .outlineOpen []) ∧
     (s.nest.run = none → s.store.loader = none →
       ((95 < slot.toNat ∨ n.toNat < 3 ∨ 4096 < n.toNat ∨ settingsOf bleed tool flags order passes label = none) →
         answer .badArg []) ∧
       (∀ i : Slot, slot.toNat = i.val → 3 ≤ n.toNat → n.toNat ≤ 4096 →
         settingsOf bleed tool flags order passes label ≠ none →
         ((s.panel i).state ≠ .empty → answer .refusedState []) ∧
         ((s.panel i).state = .empty → s.store.free.length < (n.toNat + 31) / 32 →
           answer .noSpace (be16 ((n.toNat + 31) / 32) ++ be16 s.store.free.length)))))

/-- POINTS to an open loader with no error latched, passing ORDER, OVER and RANGE: vertex k of the record becomes vertex
first + k, every other vertex place keeps its vertex, the received count grows; no reply (R9, R13). The chain is as
every chain is: without repeats and long enough for the outline (R8). POINTS that fails a test latches the first
failing one with the record's first index and stores nothing; with an error latched it is disregarded whole (R13);
with no outline open it is answered SEQUENCE with NOT_OPEN (R14); a count outside 1 to 28 is BAD_LENGTH (R14). -/
def Obligations.PointsAreStored : Prop :=
  (∀ (s : State) (tag : Byte) (first : Half) (vertices : List RawVertex) (o : OpenOutline), s.ready →
     1 ≤ vertices.length → vertices.length ≤ 28 → s.store.loader = some o → o.error = none →
     first.toNat = o.received → o.received + vertices.length ≤ o.expected →
     (∀ w ∈ vertices, w.u.toNat ≤ 2000000 ∧ w.v.toNat ≤ 2000000) →
     (s.panel o.slot).chain.Nodup → o.expected ≤ 32 * (s.panel o.slot).chain.length →
     ∃ t, exec (.points tag first vertices) s = .next t ∧
       t = { s with store := { s.store with
         contour := t.store.contour
         loader := some { o with received := o.received + vertices.length } } } ∧
       (∀ k (h : k < vertices.length), t.store.vertex (s.panel o.slot).chain (first.toNat + k) =
         ⟨vertices[k].u.toNat, vertices[k].v.toNat⟩) ∧
       (∀ place, (∀ k, k < vertices.length → place ≠ placeOf (s.panel o.slot).chain (first.toNat + k)) →
         Contour.read t.store.contour place = Contour.read s.store.contour place)) ∧
  (∀ (s : State) (tag : Byte) (first : Half) (vertices : List RawVertex), s.ready →
     ((vertices.length < 1 ∨ 28 < vertices.length) →
       exec (.points tag first vertices) s = .next (s.queueReply 0x11 tag .badLength [] none)) ∧
     (1 ≤ vertices.length → vertices.length ≤ 28 →
       (s.store.loader = none →
         exec (.points tag first vertices) s =
           .next (s.queueReply 0x11 tag .sequence [7, 0, 0, 0, 0] none)) ∧
       (∀ o, s.store.loader = some o → o.error ≠ none → exec (.points tag first vertices) s = .next s) ∧
       (∀ o, s.store.loader = some o → o.error = none →
         let latched (e : LoadError) : Prop := exec (.points tag first vertices) s =
           .next { s with store := { s.store with loader := some { o with error := some (e, first.toNat) } } }
         (first.toNat ≠ o.received → latched .order) ∧
         (first.toNat = o.received → o.expected < o.received + vertices.length → latched .over) ∧
         (first.toNat = o.received → o.received + vertices.length ≤ o.expected →
           (∃ w ∈ vertices, 2000000 < w.u.toNat ∨ 2000000 < w.v.toNat) → latched .range))))

/-- CLOSE_OUTLINE of a whole, sound outline: LOADED, FREE, the bbox the least and greatest coordinates, the loader closed
(R4, R15, R16). The order of the OK data is log 9. CLOSE_OUTLINE that fails: SEQUENCE for a latched error or a short
stream, BAD_ARG for a repeated vertex with the least index or for a flat outline, the slot EMPTY, its chain at the
tail of the free list, the loader closed; with no outline open, SEQUENCE with NOT_OPEN and no change (R15, R163). -/
def Obligations.CloseOutlineLoads : Prop :=
  (∀ (s : State) (tag : Byte) (o : OpenOutline), s.ready → s.store.loader = some o → o.error = none →
     o.received = o.expected →
     let p := s.panel o.slot
     let vs := s.store.vertices p.chain o.expected
     (∀ i < o.expected, vs[i]? ≠ vs[(i + 1) % o.expected]?) →
     ∀ b : BBox, 0 < b.width → 0 < b.height →
     (∃ w ∈ vs, w.u = b.minU) → (∃ w ∈ vs, w.v = b.minV) → (∃ w ∈ vs, w.u = b.minU + b.width) →
     (∃ w ∈ vs, w.v = b.minV + b.height) →
     (∀ w ∈ vs, b.minU ≤ w.u ∧ w.u ≤ b.minU + b.width ∧ b.minV ≤ w.v ∧ w.v ≤ b.minV + b.height) →
     exec (.closeOutline tag) s =
       .next ({ s with store := { s.store with
         panels := s.store.panels.set o.slot
           { p with state := .loaded, lock := .free, vertexCount := o.expected, bbox := some b }
         loader := none } }.queueReply 0x12 tag .ok
           (0 :: be32 b.minU ++ be32 b.minV ++ be32 b.width ++ be32 b.height ++ be32 (b.width + 2 * p.bleed) ++
             be32 (b.height + 2 * p.bleed) ++ be16 s.store.free.length) none)) ∧
  (∀ (s : State) (tag : Byte), s.ready →
     (s.store.loader = none →
       exec (.closeOutline tag) s = .next (s.queueReply 0x12 tag .sequence [7, 0, 0, 0, 0] none)) ∧
     (∀ o, s.store.loader = some o →
       let vs := s.store.vertices (s.panel o.slot).chain o.expected
       let fails (status : Status) (kind index : Nat) : Prop := exec (.closeOutline tag) s =
         .next ({ s with store := { s.store with
           panels := s.store.panels.set o.slot Panel.emptyRecord
           free := s.store.free ++ (s.panel o.slot).chain
           loader := none } }.queueReply 0x12 tag status
             (u8 kind :: be16 index ++ be16 o.received ++
               be16 (s.store.free.length + (s.panel o.slot).chain.length)) none)
       (∀ e index, o.error = some (e, index) →
         fails .sequence (match e with | .order => 1 | .over => 2 | .range => 3) index) ∧
       (o.error = none → o.received ≠ o.expected → fails .sequence 4 o.received) ∧
       (o.error = none → o.received = o.expected →
         ∀ i, i < o.expected → vs[i]? = vs[(i + 1) % o.expected]? →
           (∀ j < i, vs[j]? ≠ vs[(j + 1) % o.expected]?) → fails .badArg 5 i) ∧
       (o.error = none → o.received = o.expected → (∀ i < o.expected, vs[i]? ≠ vs[(i + 1) % o.expected]?) →
         ((∀ v ∈ vs, ∀ w ∈ vs, v.u = w.u) ∨ (∀ v ∈ vs, ∀ w ∈ vs, v.v = w.v)) → fails .badArg 6 0)))

/-- R17: ABANDON_OUTLINE empties the open slot, returns its chain to the tail of the free list and closes the loader; with
no outline open it is answered NO_CHANGE and nothing changes. -/
def Obligations.AbandonOutlineEmpties : Prop :=
  ∀ (s : State) (tag : Byte), s.ready →
    (∀ o, s.store.loader = some o → exec (.abandonOutline tag) s =
      .next ({ s with store := { s.store with
        panels := s.store.panels.set o.slot Panel.emptyRecord
        free := s.store.free ++ (s.panel o.slot).chain
        loader := none } }.queueReply 0x13 tag .ok
          (be16 (s.panel o.slot).chain.length ++
            be16 (s.store.free.length + (s.panel o.slot).chain.length)) none)) ∧
    (s.store.loader = none → exec (.abandonOutline tag) s = .next (s.queueReply 0x13 tag .noChange [] none))

/-- SET_PANEL: the checks of R6 in order; NO_CHANGE when every setting is the one held; else the seven settings written,
the reply carrying the record as it now stands, nothing else changed. -/
def Obligations.SetPanelWritesSettings : Prop :=
  ∀ (s : State) (tag slot : Byte) (bleed : Half) (tool flags order passes : Byte) (label : List Byte),
    s.ready → label.length ≤ 12 →
    let answer (status : Status) : Prop :=
      exec (.setPanel tag slot bleed tool flags order passes label) s = .next (s.queueReply 0x14 tag status [] none)
    (s.nest.run ≠ none → answer .nestBusy) ∧
    (s.nest.run = none →
      ((95 < slot.toNat ∨ settingsOf bleed tool flags order passes label = none) → answer .badArg) ∧
      (∀ (i : Slot) (g : Settings), slot.toNat = i.val → settingsOf bleed tool flags order passes label = some g →
        let p := s.panel i
        let moved := p.state = .placed ∧ (g.bleed ≠ p.bleed ∨ g.rotateOk ≠ p.rotateOk)
        ((p.state = .empty ∨ p.state = .loading) → answer .refusedState) ∧
        (p.state ≠ .empty → p.state ≠ .loading →
          (p.lock = .committed → answer .locked) ∧
          (p.lock ≠ .committed → moved → answer .refusedState) ∧
          (p.lock ≠ .committed → ¬ moved →
            g = ⟨p.label, p.tool, p.weed, p.rotateOk, p.order, p.passes, p.bleed⟩ → answer .noChange) ∧
          (p.lock ≠ .committed → ¬ moved →
            g ≠ ⟨p.label, p.tool, p.weed, p.rotateOk, p.order, p.passes, p.bleed⟩ →
            let q : Panel := { p with
              label := g.label, tool := g.tool, weed := g.weed, rotateOk := g.rotateOk, order := g.order
              passes := g.passes, bleed := g.bleed }
            exec (.setPanel tag slot bleed tool flags order passes label) s =
              .next ({ s with store := { s.store with panels := s.store.panels.set i q } }.queueReply 0x14 tag .ok
                (panelEntry i.val q) none)))))

/-- DELETE_PANEL: the checks of R7 in order; a LOADED panel is made EMPTY, its chain returned; a PLACED one too, and the
mark unit applies the row count of the layout left (R47, R48), which is stated where a readying keeps rows (R52). -/
def Obligations.DeletePanelEmpties : Prop :=
  ∀ (s : State) (tag slot : Byte), s.ready →
    let answer (status : Status) : Prop :=
      exec (.deletePanel tag slot) s = .next (s.queueReply 0x15 tag status [] none)
    (s.nest.run ≠ none → answer .nestBusy) ∧
    (s.nest.run = none → 95 < slot.toNat → answer .badArg) ∧
    (∀ i : Slot, s.nest.run = none → slot.toNat = i.val →
      let p := s.panel i
      let emptied : PanelStore := { s.store with
        panels := s.store.panels.set i Panel.emptyRecord, free := s.store.free ++ p.chain }
      let data := be16 p.chain.length ++ be16 (s.store.free.length + p.chain.length)
      ((p.state = .empty ∨ p.state = .loading) → answer .refusedState) ∧
      (p.state ≠ .empty → p.state ≠ .loading → p.lock = .committed → answer .locked) ∧
      (p.state = .loaded → p.lock ≠ .committed →
        exec (.deletePanel tag slot) s = .next ({ s with store := emptied }.queueReply 0x15 tag .ok data none)) ∧
      (p.state = .placed → p.lock ≠ .committed →
        s.keepsSpan (rowCountOf s.nest.params emptied.panels.cells) →
        exec (.deletePanel tag slot) s =
          .next ({ s with
            store := emptied
            marks := s.marks.applyRowCount (rowCountOf s.nest.params emptied.panels.cells) }.queueReply 0x15 tag .ok
              data none)))

/-! ### The nest unit -/

/-- Raising and setting the skyline over a range keep its form, change the heights as R27 says at every point, and add at
most two segments (R26, R27). -/
def Obligations.SkylineRaisedAndSet : Prop :=
  ∀ (l : List Seg) (xl xr a b h : Nat), coversRoll xl xr l → xl ≤ a → a < b → b ≤ xr →
    coversRoll xl xr (raiseSkyline a b h l) ∧ coversRoll xl xr (setSkyline a b h l) ∧
    (raiseSkyline a b h l).length ≤ l.length + 2 ∧ (setSkyline a b h l).length ≤ l.length + 2 ∧
    (∀ x, xl ≤ x → x < xr → ∃ old, heightAt l x = some old ∧
      heightAt (raiseSkyline a b h l) x = some (if a ≤ x ∧ x < b then max old h else old) ∧
      heightAt (setSkyline a b h l) x = some (if a ≤ x ∧ x < b then h else old))

/-- NEST that passes, with a run set that is not empty: ACCEPTED, the skyline the initial envelope, the draft the run
set once each, all PENDING, in the order of R31 (R29 to R31). NEST refused: NEST_BUSY, OUTLINE_OPEN; and NEST with an
empty run set, which completes at once behind its ACCEPTED reply with no panel placed and the panels' records as they
were, but nest_outcome FIXED for a fixed one (R29, R35). The initial envelope covers the roll's usable width, at every x
at LEAD or at the greatest y + eh + GAP of the PINNED and COMMITTED panels whose range covers x (R30). -/
def Obligations.NestStartsRun : Prop :=
  (∀ (s : State) (tag flags : Byte), s.ready → s.nest.run = none → s.store.loader = none →
     (1 < flags.toNat → exec (.nest tag flags) s = .next (s.queueReply 0x18 tag .badArg [] none)) ∧
     (flags.toNat ≤ 1 → ∀ j : Slot,
       ((s.panel j).lock = .free ∧ ((s.panel j).state = .loaded ∨ (s.panel j).state = .placed)) →
       ∃ draft : List Slot,
         exec (.nest tag flags) s =
           .next ({ s with nest := { s.nest with
             skyline := s.initialEnvelope
             run := some ⟨flags.toNat = 1, draft.map fun i => ⟨i, .pending⟩, 0⟩ } }.queueReply 0x18 tag .accepted []
               none) ∧
         draft.Nodup ∧
         (∀ i, i ∈ draft ↔
           ((s.panel i).lock = .free ∧ ((s.panel i).state = .loaded ∨ (s.panel i).state = .placed))) ∧
         draft.Pairwise fun a b =>
           let p := s.panel a
           let q := s.panel b
           if flags.toNat = 1 then p.order < q.order ∨ (p.order = q.order ∧ a < b)
           else q.ew0 * q.eh0 < p.ew0 * p.eh0 ∨ (p.ew0 * p.eh0 = q.ew0 * q.eh0 ∧ a < b))) ∧
  (∀ (s : State) (tag flags : Byte), s.ready →
     (s.nest.run ≠ none → exec (.nest tag flags) s = .next (s.queueReply 0x18 tag .nestBusy [] none)) ∧
     (s.nest.run = none → s.store.loader ≠ none →
       exec (.nest tag flags) s = .next (s.queueReply 0x18 tag .outlineOpen [] none)) ∧
     (s.nest.run = none → s.store.loader = none → flags.toNat ≤ 1 →
       s.keepsSpan (rowCountOf s.nest.params s.store.panels.cells) →
       (∀ i, ¬ ((s.panel i).lock = .free ∧ ((s.panel i).state = .loaded ∨ (s.panel i).state = .placed))) →
       ∃ t : State, exec (.nest tag flags) s = .next t ∧
         t.nest = { s.nest with skyline := s.initialEnvelope, run := none } ∧
         (∀ i, t.panel i = if (s.panel i).lock = .free then s.panel i else { s.panel i with outcome := .fixed }) ∧
         (s.link.outbound.length + 4 ≤ 24 → ∃ flagged : Byte, flagged.getLsbD 2 = true ∧
           t.link.outbound = s.link.outbound ++
             [⟨0x98, tag, [1, BitVec.ofNat 8 s.cycle.state.code, flagged], none⟩,
               nestDoneNotice false 0 0 0 (layoutEnd s.store.panels.cells)]))) ∧
  (∀ (s : State),
     let lp := s.nest.params
     let xr := lp.mediaWidth - lp.marginSide
     let fixed (i : Slot) (pl : Placement) : Prop :=
       ((s.panel i).lock = .pinned ∨ (s.panel i).lock = .committed) ∧ (s.panel i).placement = some pl
     lp.marginSide < xr →
     (∀ i pl, fixed i pl → lp.marginSide ≤ pl.x ∧ pl.x < xr ∧ 0 < (s.panel i).ew pl.rotation + lp.gap) →
     coversRoll lp.marginSide xr s.initialEnvelope ∧
     ∀ x, lp.marginSide ≤ x → x < xr →
       let covers (i : Slot) (pl : Placement) : Prop :=
         fixed i pl ∧ pl.x ≤ x ∧ x < pl.x + (s.panel i).ew pl.rotation + lp.gap
       ∃ h, heightAt s.initialEnvelope x = some h ∧ lp.lead ≤ h ∧
         (∀ i pl, covers i pl → pl.y + (s.panel i).eh pl.rotation + lp.gap ≤ h) ∧
         (h = lp.lead ∨ ∃ i pl, covers i pl ∧ h = pl.y + (s.panel i).eh pl.rotation + lp.gap))

/-- The candidates of a placing: one for each allowed rotation and each segment, where it fits (R32). A placing chooses
the lowest top, then the lowest x, then rotation 0, and sets the skyline to the top over the footprint's range (R33);
with no candidate it is UNFIT when every allowed rotation is wider than the usable width, else NO_ROOM, and the skyline
stands (R34). The height over a range is the greatest of the skyline in it (R32). -/
def Obligations.PlacingChoosesLowestTop : Prop :=
  (∀ (lp : LayoutParams) (l : List Seg) (p : Panel) (c : Candidate),
     c ∈ candidates lp l p ↔
       ∃ r, (r = .r0 ∨ p.rotateOk = true) ∧ ∃ g ∈ l,
         c = ⟨heightOver l g.x (min (g.x + (p.ew r + lp.gap)) lp.xr) + p.eh r + lp.gap,
           ⟨g.x, heightOver l g.x (min (g.x + (p.ew r + lp.gap)) lp.xr), r⟩, p.ew r + lp.gap⟩ ∧
         g.x + p.ew r ≤ lp.xr ∧ heightOver l g.x (min (g.x + (p.ew r + lp.gap)) lp.xr) + p.eh r ≤ lp.ymax) ∧
  (∀ (lp : LayoutParams) (l : List Seg) (p : Panel),
     (∀ c ∈ candidates lp l p, ∃ best ∈ candidates lp l p,
       placeOne lp l p = (.placed best.place,
         setSkyline best.place.x (min (best.place.x + best.footW) lp.xr) best.top l) ∧
       (best.top < c.top ∨ (best.top = c.top ∧ (best.place.x < c.place.x ∨
         (best.place.x = c.place.x ∧ (best.place.rotation = .r0 ∨ c.place.rotation = .r90)))))) ∧
     (candidates lp l p = [] →
       placeOne lp l p =
         (if lp.xr - lp.xl < p.ew .r0 ∧ (p.rotateOk = true → lp.xr - lp.xl < p.ew .r90) then .unfit else .noRoom, l))) ∧
  (∀ (l : List Seg) (xl xr a b : Nat), coversRoll xl xr l → xl ≤ a → a < b → b ≤ xr →
     (∀ x, a ≤ x → x < b → ∃ h, heightAt l x = some h ∧ h ≤ heightOver l a b) ∧
     ∃ x, a ≤ x ∧ x < b ∧ heightAt l x = some (heightOver l a b))

/-- NEST_STEP that leaves an entry PENDING: the next panel of the draft takes its outcome and the skyline follows;
nothing else changes (R31 to R34). In IDLE it does nothing (log 20). NEST_STEP that gives the last PENDING entry its
outcome: the whole draft is written at once, fixed panels take FIXED, the rows are recomputed, NEST_DONE is queued
under the room rule and the run is over (R35, R36), where a readying keeps rows (R52). -/
def Obligations.NestStepPlacesAndCompletes : Prop :=
  (∀ (s : State), s.atRest →
     (s.nest.run = none → exec .nestStep s = .next s) ∧
     (∀ run d, s.nest.run = some run → run.draft[run.next]? = some d →
       (∃ k e, run.next ≠ k ∧ run.draft[k]? = some e ∧ e.outcome = .pending) →
       let placed := placeOne s.nest.params s.nest.skyline (s.panel d.slot)
       exec .nestStep s = .next { s with nest := { s.nest with
         skyline := placed.2
         run := some ⟨run.ordered, run.draft.set run.next ⟨d.slot, placed.1⟩, run.next + 1⟩ } })) ∧
  (∀ (s : State) (run : NestRun) (d : DraftEntry), s.atRest → s.nest.run = some run →
     run.draft[run.next]? = some d → (run.draft.map (·.slot)).Nodup →
     (∀ k e, k ≠ run.next → run.draft[k]? = some e → e.outcome ≠ .pending) →
     let placed := placeOne s.nest.params s.nest.skyline (s.panel d.slot)
     let draft := run.draft.set run.next ⟨d.slot, placed.1⟩
     ∃ panels : Table Panel 96,
       (s.keepsSpan (rowCountOf s.nest.params panels.cells) → exec .nestStep s = .next (State.queueNotice
         (nestDoneNotice false (draft.countP fun e => e.outcome.isPlaced) (draft.countP fun e => e.outcome = .unfit)
           (draft.countP fun e => e.outcome = .noRoom) (layoutEnd panels.cells))
         { s with
           nest := { s.nest with skyline := placed.2, run := none }
           store := { s.store with panels := panels }
           marks := s.marks.applyRowCount (rowCountOf s.nest.params panels.cells) })) ∧
       (∀ e ∈ draft, ∀ pl, e.outcome = .placed pl →
         panels.get e.slot = { s.panel e.slot with state := .placed, placement := some pl, outcome := .placed }) ∧
       (∀ e ∈ draft, e.outcome = .unfit →
         panels.get e.slot = { s.panel e.slot with state := .loaded, placement := none, outcome := .unfit }) ∧
       (∀ e ∈ draft, e.outcome = .noRoom →
         panels.get e.slot = { s.panel e.slot with state := .loaded, placement := none, outcome := .noRoom }) ∧
       (∀ i, (∀ e ∈ draft, e.slot ≠ i) →
         panels.get i = if (s.panel i).lock = .free then s.panel i else { s.panel i with outcome := .fixed }))

/-- R37: NEST_ABORT ends a run without completing it, its NEST_DONE behind the OK; in IDLE it is answered NO_CHANGE. -/
def Obligations.NestAbortGivesUp : Prop :=
  ∀ (s : State) (tag : Byte), s.ready →
    (s.nest.run ≠ none → exec (.nestAbort tag) s =
      .next (State.queueNotice ⟨0x63, 0, [1, 0, 0, 0, 0, 0, 0, 0], none⟩
        ({ s with nest := { s.nest with skyline := [], run := none } }.queueReply 0x19 tag .ok [] none))) ∧
    (s.nest.run = none → exec (.nestAbort tag) s = .next (s.queueReply 0x19 tag .noChange [] none))

/-- The row count: 0 with no placement, else the greatest ceil((y + eh − LEAD) / MARK_PITCH) + 1 (R47). The mark unit
applies a row count: rows below both counts keep their entries, others go or come UNREAD; the bands follow (R48,
R51). -/
def Obligations.MarkTableFollowsLayout : Prop :=
  (∀ (lp : LayoutParams) (panels : List Panel), 0 < lp.markPitch →
     let rows (p : Panel) (pl : Placement) : Nat :=
       (pl.y + p.eh pl.rotation - lp.lead + (lp.markPitch - 1)) / lp.markPitch + 1
     ((∀ p ∈ panels, p.placement = none) → rowCountOf lp panels = 0) ∧
     (∀ p ∈ panels, ∀ pl, p.placement = some pl → rows p pl ≤ rowCountOf lp panels) ∧
     ((∃ p ∈ panels, p.placement ≠ none) →
       ∃ p ∈ panels, ∃ pl, p.placement = some pl ∧ rowCountOf lp panels = rows p pl)) ∧
  (∀ (mu : MarkUnit) (n : Nat), mu.bandsSafe = true →
     (mu.applyRowCount n).rows.length = n ∧ (mu.applyRowCount n).bands.length = n - 1 ∧
     (∀ r, r < n → (mu.applyRowCount n).rows[r]? =
       some ((mu.rows[r]?).getD ⟨⟨.unread, none, none, 0⟩, ⟨.unread, none, none, 0⟩⟩)) ∧
     (∀ i, i + 1 < n → (mu.applyRowCount n).bands[i]? = some ((mu.bands[i]?).getD .unchecked)) ∧
     (mu.applyRowCount n).seam = mu.seam)

/-- PLACE that passes the checks of R40, where a readying keeps rows (R52): the placement taken, PLACED, PINNED,
nest_outcome NONE, the rows recomputed, the reply with the placement, ew, eh and the row count. PLACE refused:
DOES_NOT_FIT outside the usable area, OVERLAP where footprints share a count both ways, NO_CHANGE for the placement held
by a panel PLACED and PINNED, and before these NEST_BUSY, OUTLINE_OPEN and BAD_ARG for a slot above 95 or a rotation
byte other than 0 and 90; nothing changes (R40 checks 1 to 9). -/
def Obligations.PlaceTakesPlacement : Prop :=
  (∀ (s : State) (tag slot rotation : Byte) (x y : Word) (i : Slot) (r : Rotation), s.ready →
     s.nest.run = none → s.store.loader = none → slot.toNat = i.val → rotation.toNat = r.code →
     let p := s.panel i
     let lp := s.nest.params
     let pl : Placement := ⟨x.toNat, y.toNat, r⟩
     p.lock ≠ .committed → (p.state = .loaded ∨ p.state = .placed) → (r = .r90 → p.rotateOk = true) →
     lp.marginSide ≤ pl.x → pl.x + p.ew r ≤ lp.mediaWidth - lp.marginSide → lp.lead ≤ pl.y →
     pl.y + p.eh r ≤ lp.lead + 99 * lp.markPitch →
     (∀ j q, j ≠ i → (s.panel j).placement = some q →
       q.x + (s.panel j).ew q.rotation + lp.gap ≤ pl.x ∨ pl.x + p.ew r + lp.gap ≤ q.x ∨
       q.y + (s.panel j).eh q.rotation + lp.gap ≤ pl.y ∨ pl.y + p.eh r + lp.gap ≤ q.y) →
     ¬ (p.state = .placed ∧ p.lock = .pinned ∧ p.placement = some pl) →
     let panels := s.store.panels.set i { p with
       state := .placed, lock := .pinned, placement := some pl, outcome := .none }
     let rows := rowCountOf lp panels.cells
     s.keepsSpan rows → exec (.place tag slot rotation x y) s =
       .next ({ s with
         store := { s.store with panels := panels }
         marks := s.marks.applyRowCount rows }.queueReply 0x1A tag .ok
           (be32 pl.x ++ be32 pl.y ++ [u8 r.code] ++ be32 (p.ew r) ++ be32 (p.eh r) ++ [u8 rows]) none)) ∧
  (∀ (s : State) (tag slot rotation : Byte) (x y : Word) (i : Slot) (r : Rotation), s.ready →
     s.nest.run = none → s.store.loader = none → slot.toNat = i.val → rotation.toNat = r.code →
     let p := s.panel i
     let lp := s.nest.params
     let pl : Placement := ⟨x.toNat, y.toNat, r⟩
     let answer (status : Status) : Prop :=
       exec (.place tag slot rotation x y) s = .next (s.queueReply 0x1A tag status [] none)
     let fits := lp.marginSide ≤ pl.x ∧ pl.x + p.ew r ≤ lp.mediaWidth - lp.marginSide ∧ lp.lead ≤ pl.y ∧
       pl.y + p.eh r ≤ lp.lead + 99 * lp.markPitch
     (p.lock = .committed → answer .locked) ∧
     (p.lock ≠ .committed →
       (p.state ≠ .loaded → p.state ≠ .placed → answer .refusedState) ∧
       ((p.state = .loaded ∨ p.state = .placed) →
         (r = .r90 → p.rotateOk = false → answer .badArg) ∧
         ((r = .r90 → p.rotateOk = true) →
           (¬ fits → answer .doesNotFit) ∧
           (fits → ∀ j q, j ≠ i → (s.panel j).placement = some q →
             pl.x < q.x + (s.panel j).ew q.rotation + lp.gap → q.x < pl.x + p.ew r + lp.gap →
             pl.y < q.y + (s.panel j).eh q.rotation + lp.gap → q.y < pl.y + p.eh r + lp.gap →
             answer .overlap) ∧
           (fits → (∀ j q, j ≠ i → (s.panel j).placement = some q →
               q.x + (s.panel j).ew q.rotation + lp.gap ≤ pl.x ∨ pl.x + p.ew r + lp.gap ≤ q.x ∨
               q.y + (s.panel j).eh q.rotation + lp.gap ≤ pl.y ∨ pl.y + p.eh r + lp.gap ≤ q.y) →
             p.state = .placed → p.lock = .pinned → p.placement = some pl → answer .noChange))))) ∧
  (∀ (s : State) (tag slot rotation : Byte) (x y : Word), s.ready →
     let answer (status : Status) : Prop :=
       exec (.place tag slot rotation x y) s = .next (s.queueReply 0x1A tag status [] none)
     (s.nest.run ≠ none → answer .nestBusy) ∧
     (s.nest.run = none → s.store.loader ≠ none → answer .outlineOpen) ∧
     (s.nest.run = none → s.store.loader = none →
       (95 < slot.toNat ∨ (rotation.toNat ≠ 0 ∧ rotation.toNat ≠ 90)) → answer .badArg))

/-- UNPLACE: the checks of R41 in order; a PLACED panel loses its placement, goes to LOADED, FREE, nest_outcome NONE,
the rows recomputed, where a readying keeps rows (R52). A panel in CUTTING, CUT or SKIPPED is COMMITTED (R3), so refused
LOCKED. A slot above 95 is BAD_ARG. -/
def Obligations.UnplaceRemovesPlacement : Prop :=
  (∀ (s : State) (tag slot : Byte) (i : Slot), s.ready → slot.toNat = i.val →
     let p := s.panel i
     let answer (status : Status) : Prop :=
       exec (.unplace tag slot) s = .next (s.queueReply 0x1B tag status [] none)
     (s.nest.run ≠ none → answer .nestBusy) ∧
     (s.nest.run = none → s.store.loader ≠ none → answer .outlineOpen) ∧
     (s.nest.run = none → s.store.loader = none →
       (p.lock = .committed → answer .locked) ∧
       (p.lock ≠ .committed →
         (p.state = .loaded → answer .noChange) ∧
         ((p.state = .empty ∨ p.state = .loading) → answer .refusedState) ∧
         (p.state = .placed →
           let panels := s.store.panels.set i { p with
             state := .loaded, lock := .free, placement := none, outcome := .none }
           let rows := rowCountOf s.nest.params panels.cells
           s.keepsSpan rows → exec (.unplace tag slot) s =
             .next ({ s with
               store := { s.store with panels := panels }
               marks := s.marks.applyRowCount rows }.queueReply 0x1B tag .ok [u8 rows] none))))) ∧
  (∀ (s : State) (tag slot : Byte), s.ready → s.nest.run = none → s.store.loader = none → 95 < slot.toNat →
     exec (.unplace tag slot) s = .next (s.queueReply 0x1B tag .badArg [] none))

/-- R42: PIN, its checks in order and its effect; a pinned panel is in the fixed set and not in the run set (R30). R43:
UNPIN, its checks in order and its effect; the panel then belongs to the run set (R30). -/
def Obligations.PinFixesAndUnpinFrees : Prop :=
  (∀ (s : State) (tag slot : Byte), s.ready →
     let answer (status : Status) : Prop := exec (.pin tag slot) s = .next (s.queueReply 0x1C tag status [] none)
     (s.nest.run ≠ none → answer .nestBusy) ∧
     (s.nest.run = none → s.store.loader ≠ none → answer .outlineOpen) ∧
     (s.nest.run = none → s.store.loader = none → 95 < slot.toNat → answer .badArg) ∧
     (∀ i : Slot, s.nest.run = none → s.store.loader = none → slot.toNat = i.val →
       let p := s.panel i
       (p.lock = .committed → answer .locked) ∧
       (p.lock ≠ .committed → p.state ≠ .placed → answer .refusedState) ∧
       (p.lock = .pinned → p.state = .placed → answer .noChange) ∧
       (p.lock = .free → p.state = .placed →
         exec (.pin tag slot) s =
           .next ({ s with store := { s.store with
             panels := s.store.panels.set i { p with lock := .pinned } } }.queueReply 0x1C tag .ok [] none) ∧
         ({ p with lock := .pinned } : Panel).isFixed = true ∧ ({ p with lock := .pinned } : Panel).inRunSet = false))) ∧
  (∀ (s : State) (tag slot : Byte), s.ready →
     let answer (status : Status) : Prop := exec (.unpin tag slot) s = .next (s.queueReply 0x1D tag status [] none)
     (s.nest.run ≠ none → answer .nestBusy) ∧
     (s.nest.run = none → s.store.loader ≠ none → answer .outlineOpen) ∧
     (s.nest.run = none → s.store.loader = none → 95 < slot.toNat → answer .badArg) ∧
     (∀ i : Slot, s.nest.run = none → s.store.loader = none → slot.toNat = i.val →
       let p := s.panel i
       (p.lock = .committed → answer .locked) ∧
       (p.lock ≠ .committed → (p.state = .empty ∨ p.state = .loading) → answer .refusedState) ∧
       (p.lock = .free → p.state ≠ .empty → p.state ≠ .loading → answer .noChange) ∧
       (p.lock = .pinned → p.state ≠ .empty → p.state ≠ .loading →
         exec (.unpin tag slot) s =
           .next ({ s with store := { s.store with
             panels := s.store.panels.set i { p with lock := .free } } }.queueReply 0x1D tag .ok [] none) ∧
         (p.state = .placed → ({ p with lock := .free } : Panel).inRunSet = true))))

/-- R46: UNCOMMIT, its checks in order and its effect. -/
def Obligations.UncommitNeedsKey : Prop :=
  ∀ (s : State) (tag slot : Byte), s.ready →
    let answer (status : Status) : Prop := exec (.uncommit tag slot) s = .next (s.queueReply 0x1F tag status [] none)
    (s.nest.run ≠ none → answer .nestBusy) ∧
    (s.nest.run = none → s.store.loader ≠ none → answer .outlineOpen) ∧
    (s.nest.run = none → s.store.loader = none → 95 < slot.toNat → answer .badArg) ∧
    (∀ i : Slot, s.nest.run = none → s.store.loader = none → slot.toNat = i.val →
      let p := s.panel i
      ((p.state = .empty ∨ p.state = .loading) → answer .refusedState) ∧
      (p.state ≠ .empty → p.state ≠ .loading →
        (p.lock ≠ .committed → answer .noChange) ∧
        (p.lock = .committed → (s.bed.lines.get 4).taken = false → answer .locked) ∧
        (p.lock = .committed → (s.bed.lines.get 4).taken = true →
          (p.state ≠ .placed → answer .refusedState) ∧
          (p.state = .placed → s.reachesBuilt p = true → answer .windowPassed) ∧
          (p.state = .placed → s.reachesBuilt p = false →
            exec (.uncommit tag slot) s =
              .next ({ s with store := { s.store with
                panels := s.store.panels.set i { p with lock := .pinned } } }.queueReply 0x1F tag .ok [] none)))))

/-- COMMIT, in ALL mode and with a list, its checks in order; all or none, the reply with the number of locks changed,
in one byte, which is the model's reading (R44, R45, R163; log 9). NEST_BUSY and OUTLINE_OPEN go before (R45 checks 1,
2). Which windows are built, and which print extents reach into one (R44). -/
def Obligations.CommitAllOrNone : Prop :=
  (∀ (s : State) (tag mode : Byte) (slots : List Byte), s.ready → s.nest.run = none → s.store.loader = none →
     ((mode = 0 ∧ slots = []) ∨ (mode ≠ 0 ∧ slots.length ≤ 240)) →
     let answer (status : Status) : Prop :=
       exec (.commit tag mode slots) s = .next (s.queueReply 0x1E tag status [] none)
     let named (i : Slot) : Prop :=
       if mode = 0 then (s.panel i).state = .placed ∧ (s.panel i).lock ≠ .committed else ∃ b ∈ slots, b.toNat = i.val
     ((1 < mode.toNat ∨ (mode = 1 ∧ (slots = [] ∨ 96 < slots.length ∨ ∃ b ∈ slots, 95 < b.toNat))) → answer .badArg) ∧
     ((mode = 0 ∨ (mode = 1 ∧ slots ≠ [] ∧ slots.length ≤ 96 ∧ ∀ b ∈ slots, b.toNat ≤ 95)) →
       ((∃ i, named i ∧ (s.panel i).state ≠ .placed) → answer .refusedState) ∧
       ((∀ i, named i → (s.panel i).state = .placed) →
         ((∀ i, named i → (s.panel i).lock = .committed) → answer .noChange) ∧
         ((∃ i, named i ∧ (s.panel i).lock ≠ .committed ∧ s.reachesBuilt (s.panel i) = true) → answer .windowPassed) ∧
         ((∃ i, named i ∧ (s.panel i).lock ≠ .committed) →
           (∀ i, named i → (s.panel i).lock ≠ .committed → s.reachesBuilt (s.panel i) = false) →
           ∃ (panels : Table Panel 96) (fresh : List Slot),
             exec (.commit tag mode slots) s =
               .next ({ s with store := { s.store with panels := panels } }.queueReply 0x1E tag .ok [u8 fresh.length]
                 none) ∧
             fresh.Nodup ∧ (∀ i, i ∈ fresh ↔ (named i ∧ (s.panel i).lock ≠ .committed)) ∧
             (∀ i, named i → panels.get i = { s.panel i with lock := .committed }) ∧
             (∀ i, ¬ named i → panels.get i = s.panel i))))) ∧
  (∀ (s : State) (p : Panel),
     (s.plan.worklist = none → s.windowsBuilt = s.cycle.pointer) ∧
     (∀ w, s.plan.worklist = some w → w.window = s.cycle.pointer → s.windowsBuilt = s.cycle.pointer + 1) ∧
     (p.placement = none → s.reachesBuilt p = false) ∧
     (∀ pl, p.placement = some pl → (s.reachesBuilt p = true ↔ 1 ≤ s.windowsBuilt ∧
       pl.y < s.nest.params.lead +
         s.windowsBuilt * (s.nest.params.windowLength / s.nest.params.markPitch * s.nest.params.markPitch)))) ∧
  (∀ (s : State) (tag mode : Byte) (slots : List Byte), s.ready →
     ((mode = 0 ∧ slots = []) ∨ (mode ≠ 0 ∧ slots.length ≤ 240)) →
     let answer (status : Status) : Prop :=
       exec (.commit tag mode slots) s = .next (s.queueReply 0x1E tag status [] none)
     (s.nest.run ≠ none → answer .nestBusy) ∧
     (s.nest.run = none → s.store.loader ≠ none → answer .outlineOpen))

/-! ### The cut cycle -/

/-- SET_BREAK: BAD_ARG for what R106 names, NO_CHANGE for what is held, else the entry or the step flag written; in
every cycle state, and nothing else changes (R106). That index 4 reads the fourth byte alone, and kinds OFF and ITEM no
argument, is the model's choice (log 36). Which item starts a breakpoint matches (R102). The test at an item start: STEP
and BREAK become pending reasons and the HALT entries that match are kept, one BREAK notice names the NOTIFY entries
that match, and the answer is go exactly when no reason is pending (R102). The planner stops at an item start that is
answered stop, and the suspension is taken with resume point CONTINUE once no planner entry is queued (R84, R103). -/
def Obligations.SetBreakWrites : Prop :=
  (∀ (s : State) (tag index kind argument action : Byte), s.ready →
    let answer (status : Status) : Prop :=
      exec (.setBreak tag index kind argument action) s = .next (s.queueReply 0x09 tag status [] none)
    (4 < index.toNat → answer .badArg) ∧
    (index = 4 →
      (1 < action.toNat → answer .badArg) ∧
      (∀ on : Bool, action.toNat = (if on then 1 else 0) →
        (s.cycle.step = on → answer .noChange) ∧
        (s.cycle.step ≠ on → exec (.setBreak tag index kind argument action) s =
          .next ({ s with cycle := { s.cycle with step := on } }.queueReply 0x09 tag .ok [] none)))) ∧
    (∀ j : Fin 4, index.toNat = j.val →
      ((1 < action.toNat ∨ breakKindOf kind argument = none) → answer .badArg) ∧
      (∀ k a, breakKindOf kind argument = some k → action.toNat = (if a = BreakAction.halt then 0 else 1) →
        (s.cycle.breakpoints.get j = ⟨k, a⟩ → answer .noChange) ∧
        (s.cycle.breakpoints.get j ≠ ⟨k, a⟩ → exec (.setBreak tag index kind argument action) s =
          .next ({ s with cycle := { s.cycle with
            breakpoints := s.cycle.breakpoints.set j ⟨k, a⟩ } }.queueReply 0x09 tag .ok [] none))))) ∧
  (∀ argument : Byte,
    breakKindOf 0 argument = some .off ∧ breakKindOf 3 argument = some .item ∧
    breakKindOf 1 argument = (if argument.toNat ≤ 95 then some (.panelStart argument.toNat) else none) ∧
    breakKindOf 2 argument = (if argument.toNat ≤ 99 then some (.windowStart argument.toNat) else none) ∧
    breakKindOf 4 argument = (if argument.toNat ≤ 98 then some (.band argument.toNat) else none) ∧
    ∀ kind : Byte, 4 < kind.toNat → breakKindOf kind argument = none) ∧
  (∀ (w : Worklist) (r : ItemStart) (a : BreakAction) (n : Nat),
     let begun (it : Item) : Prop := it.state = .active ∨ it.state = .done
     (⟨.off, a⟩ : Breakpoint).hits w r = false ∧ (⟨.item, a⟩ : Breakpoint).hits w r = true ∧
     ((⟨.panelStart n, a⟩ : Breakpoint).hits w r = true ↔
       r.slot.val = n ∧ ∀ it ∈ w.items, it.slot = r.slot → ¬ begun it) ∧
     ((⟨.windowStart n, a⟩ : Breakpoint).hits w r = true ↔ r.window = n ∧ ∀ it ∈ w.items, ¬ begun it) ∧
     ((⟨.band n, a⟩ : Breakpoint).hits w r = true ↔ r.band = some n)) ∧
  (∀ (s : State) (w : Worklist) (r : ItemStart),
     let t := (s.testItemStart w r).1
     let hit (a : BreakAction) (i : Fin 4) : Prop :=
       (s.cycle.breakpoints.get i).action = a ∧ (s.cycle.breakpoints.get i).hits w r = true
     t.cycle.reasons.request = s.cycle.reasons.request ∧
     t.cycle.reasons.step = (s.cycle.reasons.step || s.cycle.step) ∧
     (t.cycle.reasons.brk = true ↔ (s.cycle.reasons.brk = true ∨ ∃ i, hit .halt i)) ∧
     (∀ i : Fin 4, t.cycle.halts.getLsbD i.val = true ↔ (s.cycle.halts.getLsbD i.val = true ∨ hit .halt i)) ∧
     t = { s with
       link := t.link
       cycle := { s.cycle with reasons := t.cycle.reasons, halts := t.cycle.halts } } ∧
     ((s.testItemStart w r).2 = true ↔ t.cycle.reasons = ⟨false, false, false⟩) ∧
     ((∀ i, ¬ hit .notify i) → t.link = s.link) ∧
     ((∃ i, hit .notify i) → ∃ bits : BitVec 4, (∀ i : Fin 4, bits.getLsbD i.val = true ↔ hit .notify i) ∧
       t.link = { s.link with formed := s.link.formed ++ [breakNotice bits r.window r.item r.slot] })) ∧
  (∀ (s : State) (w : Worklist) (i : Nat) (it : Item), w.issue.travelDue = true → w.issue.reported = false →
     it.passDone = 0 → it.segDone = 0 → w.startPassed ≠ some i →
     let asked := s.testItemStart w ⟨w.window, i, it.slot, s.pointBand (s.itemPoint w it 0)⟩
     asked.2 = false → s.issueItem w i it =
       (asked.1.withPlan { asked.1.plan with
         worklist := some { w with startPassed := some i, stopped := true } }, .stopped)) ∧
  (∀ (s : State), s.suspendPending = true → (∀ e ∈ s.motion.queue, e.producer ≠ .planner) →
     s.suspendIfDrained.cycle.state = .suspended ∧
     s.suspendIfDrained.cycle.taken = some ⟨s.cycle.reasons, s.cycle.halts, .continue⟩ ∧
     s.suspendIfDrained.cycle.reasons = ⟨false, false, false⟩)

/-- CLEAR_FAULT: NO_CHANGE outside HALTED; STILL_ACTIVE while a line of the record's kind or last follow-on is active; else
the record emptied, HELD(RECOVER) while a run is active, IDLE otherwise, the reply with the record as it stood (R149,
R150). -/
def Obligations.ClearFaultLeavesHalted : Prop :=
  ∀ (s : State) (tag : Byte), s.ready → s.cycleSafe = true →
    let stands (k : FaultKind) (r : FaultRecord) : Prop := r.kind = k ∨ r.lastFollowOn = some k
    let active (r : FaultRecord) : Prop :=
      (stands .estop r ∧ (s.bed.lines.get 0).taken = true) ∨ (stands .guard r ∧ (s.bed.lines.get 1).taken = true) ∨
      (stands .mediaEnd r ∧ (s.bed.lines.get 3).taken = true)
    (s.cycle.state ≠ .halted → exec (.clearFault tag) s = .next (s.queueReply 0x0A tag .noChange [] none)) ∧
    (∀ r, s.cycle.fault = some r →
      (active r → ∃ k, ((k = .estop ∧ (s.bed.lines.get 0).taken = true) ∨
          (k = .guard ∧ (s.bed.lines.get 1).taken = true) ∨ (k = .mediaEnd ∧ (s.bed.lines.get 3).taken = true)) ∧
        stands k r ∧ exec (.clearFault tag) s = .next (s.queueReply 0x0A tag .stillActive [u8 k.code] none)) ∧
      (¬ active r → exec (.clearFault tag) s =
        .next ({ s with
          cycle := { s.cycle with
            fault := none
            state := if s.cycle.runActive then .held else .idle
            hold := if s.cycle.runActive then some .recover else none }
          bed := { s.bed with beacon := s.cycle.runActive } }.queueReply 0x0A tag .ok (faultEntryBytes r) none)))

/-- HOME: the checks of R94 in order; taken with the home lines off, the cycle goes to HOMING and the HOME entry
executes, its tools raised; both axes are driven (R94, R121, R122, R125). JOG: the checks of R114 in order; taken, one
TRAVEL executes and the cycle state stands. Its move completion puts the head at the target and leaves the queue empty
with both tools raised, and nothing else changes (R123). HOME with a home line on: with one on, its axis is home and
HOMING goes on; with both on the homing is complete at once. In HOMING a taken rise of HOME_X or HOME_Y brings its axis
home; the second completes the homing: head (0, 0), homed flag set, queue empty, tools raised, IDLE (R94, R125). -/
def Obligations.HomeAndJogMove : Prop :=
  (∀ (s : State) (tag : Byte), s.ready → s.cycleSafe = true →
     let answer (status : Status) : Prop := exec (.home tag) s = .next (s.queueReply 0x20 tag status [] none)
     (s.cycle.state = .halted → answer .faultLatched) ∧
     (s.cycle.state ≠ .halted → s.cycle.state ≠ .idle → answer .refusedState) ∧
     (s.cycle.state = .idle →
       (s.motion.executing = true → answer .busy) ∧
       (s.motion.executing = false → (s.bed.lines.get 1).taken = true → answer .guardOpen) ∧
       (s.motion.executing = false → (s.bed.lines.get 1).taken = false → (s.bed.lines.get 6).taken = false →
         (s.bed.lines.get 7).taken = false →
         exec (.home tag) s = .next ({ s with
           cycle := { s.cycle with state := .homing }
           motion := { s.motion with
             queue := [.home], executing := true, speed := some s.motion.params.travelSpeed, kiss := .raised
             thru := .raised, homing := some ⟨false, false⟩ }
           bed := { s.bed with toolKiss := none, toolThru := none } }.queueReply 0x20 tag .ok [] none)))) ∧
  ((∀ (s : State) (tag : Byte) (x y : Word), s.ready →
     let answer (status : Status) : Prop := exec (.jog tag x y) s = .next (s.queueReply 0x27 tag status [] none)
     let standing := s.cycle.state = .idle ∨ s.cycle.state = .suspended ∨ s.cycle.state = .held
     let onBed := x.toNat ≤ 165000 ∧ y.toNat ≤ 260000
     (s.cycle.state = .halted → answer .faultLatched) ∧
     (s.cycle.state ≠ .halted → ¬ standing → answer .refusedState) ∧
     (standing → ¬ onBed → answer .badArg) ∧
     (standing → onBed → s.motion.homed = false → answer .notHomed) ∧
     (standing → onBed → s.motion.homed = true → (s.bed.lines.get 1).taken = true → answer .guardOpen) ∧
     (standing → onBed → s.motion.homed = true → (s.bed.lines.get 1).taken = false → s.motion.queue ≠ [] →
       answer .busy) ∧
     (standing → onBed → s.motion.homed = true → (s.bed.lines.get 1).taken = false → s.motion.queue = [] →
       exec (.jog tag x y) s = .next ({ s with
         motion := { s.motion with
           queue := [.travel .cycle ⟨x.toNat, y.toNat⟩], executing := true
           speed := some s.motion.params.travelSpeed, kiss := .raised, thru := .raised }
         bed := { s.bed with toolKiss := none, toolThru := none } }.queueReply 0x27 tag .ok [] none))) ∧
   (∀ (s : State) (target : BedPos), s.atRest → s.motion.queue = [.travel .cycle target] →
     exec .moveCompletion s = .next { s with
       motion := { s.motion with
         queue := [], executing := false, head := some target, speed := none, commanded := none, homing := none
         kiss := .raised, thru := .raised }
       bed := { s.bed with toolKiss := none, toolThru := none } })) ∧
  (∀ (s : State) (tag : Byte), s.ready → s.cycleSafe = true → s.cycle.state = .idle → s.motion.executing = false →
     (s.bed.lines.get 1).taken = false →
     let xOn := (s.bed.lines.get 6).taken
     let yOn := (s.bed.lines.get 7).taken
     ((xOn && yOn) = false → exec (.home tag) s = .next ({ s with
       cycle := { s.cycle with state := .homing }
       motion := { s.motion with
         queue := [.home], executing := true, speed := some s.motion.params.travelSpeed, kiss := .raised
         thru := .raised, homing := some ⟨xOn, yOn⟩ }
       bed := { s.bed with toolKiss := none, toolThru := none } }.queueReply 0x20 tag .ok [] none)) ∧
     (xOn = true → yOn = true → ∃ t digest, exec (.home tag) s = .next t ∧ t.cycle = s.cycle ∧
       t.motion = { s.motion with
         queue := [], executing := false, head := some ⟨0, 0⟩, homed := true, speed := none, commanded := none
         homing := none, kiss := .raised, thru := .raised } ∧
       t.bed = { s.bed with toolKiss := none, toolThru := none } ∧
       t.link.outbound = s.link.outbound ++ [⟨0xA0, tag, 0 :: digest, none⟩])) ∧
  (∀ (s : State) (h : Homing) (axis : Axis), s.atRest → s.cycleSafe = true → s.cycle.state = .homing →
     s.motion.queue = [.home] → s.motion.homing = some h →
     let i : Fin 8 := match axis with | .x => 6 | .y => 7
     let other := match axis with | .x => h.yHome | .y => h.xHome
     let l := s.bed.lines.get i
     let lines := s.bed.lines.set i { l with taken := true, timer := none }
     l.timer ≠ none → l.wire = true → l.taken = false → l.riseEn = false →
     (other = false → exec (.filterExpiry i) s = .next { s with
       motion := { s.motion with homing := some (match axis with | .x => ⟨true, false⟩ | .y => ⟨false, true⟩) }
       bed := { s.bed with lines := lines } }) ∧
     (other = true → exec (.filterExpiry i) s = .next { s with
       cycle := { s.cycle with state := .idle }
       motion := { s.motion with
         queue := [], executing := false, head := some ⟨0, 0⟩, homed := true, speed := none, commanded := none
         homing := none, kiss := .raised, thru := .raised }
       bed := { s.bed with lines := lines, toolKiss := none, toolThru := none } }))

/-- TEST_CUT that passes: TESTCUT with the state before kept, a TRAVEL to the corner executing and the four CUTs of the
square behind it; the fourth CUT's completion restores the state with its reason or record (R113, R142). TEST_CUT
refused: the checks of R113 in order; nothing changes. -/
def Obligations.TestCutAndReturn : Prop :=
  (∀ (s : State) (tag tool : Byte) (size : Half) (x y : Word) (t : Tool), s.ready → s.cycleSafe = true →
    (s.cycle.state = .idle ∨ s.cycle.state = .suspended ∨ s.cycle.state = .held) → tool.toNat = t.code →
    500 ≤ size.toNat → size.toNat ≤ 2500 → x.toNat + size.toNat ≤ 165000 → y.toNat + size.toNat ≤ 260000 →
    s.motion.homed = true → (s.bed.lines.get 1).taken = false → s.motion.queue = [] →
    let a : BedPos := ⟨x.toNat, y.toNat⟩
    let n : Int := size.toNat
    exec (.testCut tag tool size x y) s = .next ({ s with
      cycle := { s.cycle with
        state := .testcut, before := some ⟨s.cycle.state, s.cycle.hold, s.cycle.taken⟩, hold := none, taken := none
        testCuts := 0 }
      motion := { s.motion with
        queue := [.travel .cycle a, .cut t ⟨a.x + n, a.y⟩ none, .cut t ⟨a.x + n, a.y + n⟩ none,
          .cut t ⟨a.x, a.y + n⟩ none, .cut t a none]
        executing := true, speed := some s.motion.params.travelSpeed, kiss := .raised, thru := .raised }
      bed := { s.bed with toolKiss := none, toolThru := none, beacon := false } }.queueReply 0x26 tag .ok [] none)) ∧
  (∀ (s : State) (t : Tool) (target : BedPos) (b : Before), s.atRest → s.cycleSafe = true →
    s.cycle.state = .testcut → s.cycle.testCuts = 3 → s.cycle.before = some b → s.motion.queue = [.cut t target none] →
    exec .moveCompletion s = .next { s with
      cycle := { s.cycle with
        state := b.state, hold := b.hold, taken := b.taken, before := none, testCuts := 0 }
      motion := { s.motion with
        queue := [], executing := false, head := some target, speed := none, commanded := none, homing := none
        kiss := .raised, thru := .raised }
      bed := { s.bed with toolKiss := none, toolThru := none, beacon := decide (b.state = .held) } }) ∧
  (∀ (s : State) (tag tool : Byte) (size : Half) (x y : Word), s.ready →
     let answer (status : Status) : Prop :=
       exec (.testCut tag tool size x y) s = .next (s.queueReply 0x26 tag status [] none)
     let standing := s.cycle.state = .idle ∨ s.cycle.state = .suspended ∨ s.cycle.state = .held
     let square := tool.toNat ≤ 1 ∧ 500 ≤ size.toNat ∧ size.toNat ≤ 2500 ∧ x.toNat + size.toNat ≤ 165000 ∧
       y.toNat + size.toNat ≤ 260000
     (s.cycle.state = .halted → answer .faultLatched) ∧
     (s.cycle.state ≠ .halted → ¬ standing → answer .refusedState) ∧
     (standing → ¬ square → answer .badArg) ∧
     (standing → square → s.motion.homed = false → answer .notHomed) ∧
     (standing → square → s.motion.homed = true → (s.bed.lines.get 1).taken = true → answer .guardOpen) ∧
     (standing → square → s.motion.homed = true → (s.bed.lines.get 1).taken = false → s.motion.queue ≠ [] →
       answer .busy))

/-- START_CUT that passes (R95). With windows owed and a remainder above 0 the owed feed executes (R127); with none owed
and a worklist with live items at the pointer, the window is re-entered, opened without an advance, and its settle
begins (R55, R75, R93, R96). START_CUT refused: the checks of R95 in order; nothing changes. Where the window is built:
FULL above 256 items gives HELD(PLAN_FULL), ITEMS the settle, EMPTY the next window's feed (R75, R81, R96, R99, R104).
The opening of a window (R55) and the issue pointer set to the cursor (R85). The build: the panels selected and their
order, WEED items before OUTLINE items, each with its passes (R74, R75, R79, R80); the pieces of a closed outline in a
cut range, their order, and their entry and exit points with the crossings rounded (R76, R77, R80); the first and last
window of a panel, its cut range and its weed border (R71, R72, R78). -/
def Obligations.StartCutFeedsOrSettles : Prop :=
  (∀ (s : State) (tag : Byte) (i : Slot) (pl : Placement), s.ready → s.cycleSafe = true → s.cycle.state = .idle →
     s.motion.homed = true → (s.bed.lines.get 1).taken = false → s.motion.executing = false →
     (s.panel i).lock = .committed → ((s.panel i).state = .placed ∨ (s.panel i).state = .cutting) →
     (s.panel i).placement = some pl → s.cycle.pointer + s.cycle.owed ≤ (s.panel i).lastWindow s.nest.params →
     (0 < s.cycle.owed → 0 < s.cycle.remainder → (s.bed.lines.get 3).taken = false →
       exec (.startCut tag) s = .next ({ s with
         cycle := { s.cycle with state := .feeding, runActive := true, feedJob := some ⟨.owed, s.cycle.owed⟩ }
         motion := { s.motion with
           queue := [.feed s.cycle.remainder.toNat], executing := true, speed := none, kiss := .raised
           thru := .raised, commanded := some s.cycle.remainder.toNat, encoder := 0
           guardTimer := some s.motion.params.feedGuardTime }
         bed := { s.bed with
           toolKiss := none, toolThru := none, feedDrive := true, zones := Table.fill 4 false } }.queueReply 0x21 tag .ok
             [] none)) ∧
     (∀ w, s.cycle.owed = 0 → s.plan.worklist = some w → w.window = s.cycle.pointer →
       (∃ it ∈ w.items, it.state = .pending ∨ it.state = .active) → s.suspendPending = false → 0 < s.cycle.vacSettle →
       exec (.startCut tag) s = .next (State.queueNotice (windowStartNotice w.window w.items.length) ({ s with
         cycle := { s.cycle with
           state := .measuring, runActive := true, phase := .settle, settleTimer := some s.cycle.vacSettle }
         plan := { s.plan with worklist := some { w.rewind with startPassed := none, stopped := false } }
         marks := s.marks.openWindow s.cycle.pointer s.windowSpan none
         bed := { s.bed with
           zones := s.bed.zones.map fun z on => on || windowZone s.nest.params z } }.queueReply 0x21 tag .ok [] none)))) ∧
  (∀ (s : State) (tag : Byte), s.ready →
     let answer (status : Status) : Prop := exec (.startCut tag) s = .next (s.queueReply 0x21 tag status [] none)
     let toCut := ∃ i pl, (s.panel i).lock = .committed ∧
       ((s.panel i).state = .placed ∨ (s.panel i).state = .cutting) ∧ (s.panel i).placement = some pl ∧
       s.cycle.pointer + s.cycle.owed ≤ (s.panel i).lastWindow s.nest.params
     (s.cycle.state = .halted → answer .faultLatched) ∧
     (s.cycle.state ≠ .halted → s.cycle.state ≠ .idle → answer .refusedState) ∧
     (s.cycle.state = .idle →
       (s.motion.homed = false → answer .notHomed) ∧
       (s.motion.homed = true → (s.bed.lines.get 1).taken = true → answer .guardOpen) ∧
       (s.motion.homed = true → (s.bed.lines.get 1).taken = false → s.motion.executing = true → answer .busy) ∧
       (s.motion.homed = true → (s.bed.lines.get 1).taken = false → s.motion.executing = false → ¬ toCut →
         answer .notFound))) ∧
  (∀ (s : State) (tag : Byte) (i : Slot) (pl : Placement), s.ready → s.cycleSafe = true → s.cycle.state = .idle →
     s.motion.homed = true → (s.bed.lines.get 1).taken = false → s.motion.executing = false → s.cycle.owed = 0 →
     s.plan.worklist = none → s.suspendPending = false → s.cycle.stopPending = false →
     (s.panel i).lock = .committed → (s.panel i).state = .placed → (s.panel i).placement = some pl → s.cycle.pointer ≤ (s.panel i).lastWindow s.nest.params →
     let k := s.cycle.pointer
     let items := s.builtItems k
     let built : Worklist := ⟨k, items, false, issueAt items (if items = [] then none else some 0), none, false,
       s.plan.weedDistance, s.nest.params.lead + (s.marks.rows.length - 1) * s.nest.params.markPitch⟩
     (256 < items.length →
       exec (.startCut tag) s = .next (State.queueNotice (heldNotice .planFull k (be16 items.length)) ({ s with
         cycle := { s.cycle with
           state := .held, hold := some .planFull, runActive := true, reasons := ⟨false, false, false⟩, halts := 0 }
         marks := s.marks.openWindow k s.windowSpan none
         motion := { s.motion with kiss := .raised, thru := .raised }
         bed := { s.bed with toolKiss := none, toolThru := none, beacon := true } }.queueReply 0x21 tag .ok [] none))) ∧
     (items ≠ [] → items.length ≤ 256 → 0 < s.cycle.vacSettle →
       exec (.startCut tag) s = .next (State.queueNotice (windowStartNotice k items.length) ({ s with
         cycle := { s.cycle with
           state := .measuring, runActive := true, phase := .settle, settleTimer := some s.cycle.vacSettle }
         plan := { s.plan with worklist := some built }
         marks := s.marks.openWindow k s.windowSpan none
         bed := { s.bed with
           zones := s.bed.zones.map fun z on => on || windowZone s.nest.params z } }.queueReply 0x21 tag .ok [] none))) ∧
     (items = [] → k + 1 ≤ (s.panel i).lastWindow s.nest.params → (s.bed.lines.get 3).taken = false → ∃ t,
       exec (.startCut tag) s = .next t ∧ t.cycle.state = .feeding ∧ t.cycle.feedJob = some ⟨.run, 1⟩ ∧
       t.motion.queue = [.feed s.nest.params.advance] ∧ t.marks = s.marks ∧
       t.plan.worklist = some { built with completed := true })) ∧
  (∀ (mu : MarkUnit) (k : Nat) (advance : Option Int),
     let opened := mu.openWindow k
     let fresh (m : Mark) : Mark := if m.state = .unread then { m with attempts := 0 } else
       ⟨.unread, none, (match m.measured with
         | some q => if q.window < k then some q else m.previous
         | none => m.previous), 0⟩
     (∀ span, (opened span advance).span = span ∧ (opened span advance).flight = none ∧
       (opened span advance).seam = (match advance with
         | some a => if 0 < k then some ⟨k, a⟩ else none
         | none => none)) ∧
     (opened none advance).rows = mu.rows ∧ (opened none advance).bands = mu.bands ∧
     (∀ sp, (opened (some sp) advance).rows = mu.rows.mapIdx fun i r =>
         if sp.first ≤ i ∧ i ≤ sp.last then ⟨fresh r.left, fresh r.right⟩ else r) ∧
     (∀ sp i, i < mu.bands.length → sp.first ≤ i → i < sp.last →
       (opened (some sp) advance).bands[i]? = some .unchecked) ∧
     (∀ sp i, (i + 1 < sp.first ∨ sp.last < i) → (opened (some sp) advance).bands[i]? = mu.bands[i]?)) ∧
  (∀ (w : Worklist) (i : Nat) (it : Item),
     (w.cursorIndex = some i ↔ ((∃ a, w.items[i]? = some a ∧ (a.state = .pending ∨ a.state = .active)) ∧
       ∀ j a, j < i → w.items[j]? = some a → ¬ (a.state = .pending ∨ a.state = .active))) ∧
     (w.cursorIndex = some i → w.items[i]? = some it →
       w.rewind = { w with issue := ⟨some i, it.passDone, it.segDone, true, false⟩ }) ∧
     (w.cursorIndex = none → w.rewind = { w with issue := ⟨none, 0, 0, false, false⟩ })) ∧
  (∀ (s : State) (k : Nat),
     let lp := s.nest.params
     let v (j : Nat) : Nat := lp.lead + j * (lp.windowLength / lp.markPitch * lp.markPitch)
     let order (p q : PanelPlan) : Prop := p.minV < q.minV ∨ (p.minV = q.minV ∧
       (p.minU < q.minU ∨ (p.minU = q.minU ∧ p.slot < q.slot)))
     (∀ i, i ∈ s.selected k ↔ ((s.panel i).lock = .committed ∧
       ((s.panel i).state = .placed ∨ (s.panel i).state = .cutting) ∧
       ∃ pl, (s.panel i).placement = some pl ∧ pl.y < v (k + 1) ∧ v k < pl.y + (s.panel i).eh pl.rotation)) ∧
     (∃ plans : List PanelPlan, s.builtItems k = plans.flatMap (fun p => p.items) ∧ plans.Pairwise order ∧
       ∀ p, p ∈ plans ↔ ∃ i, i ∈ s.selected k ∧ s.planPanel k s.lastRowV i = some p) ∧
     (∀ i lastRow,
       let p := s.panel i
       let border := if p.weed = true then weedBorder lp s.plan.weedDistance lastRow p else []
       let wps := piecesOf (cutRange lp p k) border
       let ops := piecesOf (cutRange lp p k) (s.mappedOutline p)
       let pts := piecePoints border wps ++ piecePoints (s.mappedOutline p) ops
       let passes := if p.passes ≠ 0 then p.passes else match p.tool with
         | .kiss => s.plan.kissPasses
         | .thru => s.plan.thruPasses
       (wps = [] → ops = [] → s.planPanel k lastRow i = none) ∧
       ((wps ≠ [] ∨ ops ≠ []) → ∃ q, s.planPanel k lastRow i = some q ∧ q.slot = i ∧
         q.items = wps.map (fun c => ⟨i, .weed, .kiss, c.first, c.last, c.entry, c.exit, c.segments, s.plan.kissPasses,
             0, 0, .pending⟩) ++
           ops.map (fun c => ⟨i, .outline, p.tool, c.first, c.last, c.entry, c.exit, c.segments, passes,
             0, 0, .pending⟩) ∧
         (∀ w ∈ pts, q.minV ≤ w.v ∧ q.minU ≤ w.u) ∧ (∃ w ∈ pts, w.v = q.minV) ∧ (∃ w ∈ pts, w.u = q.minU)))) ∧
  (∀ (c : CutRange) (vs : List Vertex), vs ≠ [] → c.lo ≤ c.hi →
     let n := vs.length
     let vertex (i : Nat) : Vertex := vs.getD (i % n) ⟨0, 0⟩
     let below (i : Nat) : Prop := (vertex i).v < c.lo
     let above (i : Nat) : Prop := if c.closed = true then c.hi < (vertex i).v else c.hi ≤ (vertex i).v
     let inside (i : Nat) : Prop := ¬ below i ∧ ¬ above i
     let touching (i : Nat) : Prop := inside i ∨ inside (i + 1) ∨ (below i ∧ above (i + 1)) ∨ (above i ∧ below (i + 1))
     let crosses (i out : Nat) (w : Vertex) : Prop :=
       (below out → w.v = c.lo) ∧ (above out → w.v = c.hi) ∧
       roundsTo ((vertex i).u + (((vertex (i + 1)).u : Rat) - (vertex i).u) * ((w.v : Rat) - (vertex i).v) /
         (((vertex (i + 1)).v : Rat) - (vertex i).v)) w.u
     ((∀ i, inside i) → piecesOf c vs = [⟨0, 0, n, none, none⟩]) ∧
     (¬ (∀ i, inside i) →
       (∀ p ∈ piecesOf c vs, p.first < n ∧ 1 ≤ p.segments ∧ p.segments ≤ n ∧ p.last = (p.first + p.segments) % n ∧
         ¬ inside p.first ∧ ¬ inside (p.first + p.segments) ∧
         (∀ j, 0 < j → j < p.segments → inside (p.first + j)) ∧
         (∀ j, j < p.segments → touching (p.first + j)) ∧
         ∃ e x, p.entry = some e ∧ p.exit = some x ∧ crosses p.first p.first e ∧
           crosses (p.first + p.segments - 1) (p.first + p.segments) x) ∧
       (∀ i, i < n → touching i → ∃ p ∈ piecesOf c vs, ∃ j < p.segments, (p.first + j) % n = i) ∧
       ((piecesOf c vs).map (fun p => p.first)).Nodup ∧
       (∀ p rest, piecesOf c vs = p :: rest → rest.Pairwise (fun a b => a.first < b.first) ∧
         ∀ i, i < n → touching i → ∃ j < p.segments, (p.first + j) % n ≤ i)) ∧
     (∀ (p : Piece) (j : Nat),
       (p.entry = none → piecePoint vs p.first p.segments p.entry p.exit j = vertex (p.first + j)) ∧
       (∀ e x, p.entry = some e → p.exit = some x → 0 < p.segments →
         piecePoint vs p.first p.segments p.entry p.exit 0 = e ∧
         piecePoint vs p.first p.segments p.entry p.exit p.segments = x ∧
         (0 < j → j < p.segments → piecePoint vs p.first p.segments p.entry p.exit j = vertex (p.first + j))))) ∧
  (∀ (lp : LayoutParams) (p : Panel) (pl : Placement) (distance lastRow k : Nat), p.placement = some pl →
     0 < lp.markPitch → lp.markPitch ≤ lp.windowLength → lp.lead ≤ pl.y → 0 < p.eh pl.rotation →
     let v (j : Nat) : Nat := lp.lead + j * (lp.windowLength / lp.markPitch * lp.markPitch)
     let met (j : Nat) : Prop := pl.y < v (j + 1) ∧ v j < pl.y + p.eh pl.rotation
     let f := p.firstWindow lp
     let l := p.lastWindow lp
     met f ∧ met l ∧ (∀ j, met j ↔ (f ≤ j ∧ j ≤ l)) ∧ cutRange lp p k = ⟨v k, v (k + 1), decide (k = l)⟩ ∧
     ∃ u0 u1 v0 v1 : Nat, weedBorder lp distance lastRow p = [⟨u0, v0⟩, ⟨u1, v0⟩, ⟨u1, v1⟩, ⟨u0, v1⟩] ∧
       (u0 : Int) = max 0 ((pl.x : Int) - distance) ∧ u1 = min lp.mediaWidth (pl.x + p.ew pl.rotation + distance) ∧
       (v0 : Int) = max (v f : Int) ((pl.y : Int) - distance) ∧
       v1 = min (min (v (l + 1)) lastRow) (pl.y + p.eh pl.rotation + distance))

/-- R101: SUSPEND by cycle state: NO_CHANGE, REFUSED_STATE, or REQUEST added to the pending reasons, whatever else is
pending, with SUSPEND_PENDING in its reply. -/
def Obligations.SuspendAddsRequest : Prop :=
  ∀ (s : State) (tag : Byte), s.ready →
    let answer (status : Status) : Prop := exec (.suspend tag) s = .next (s.queueReply 0x22 tag status [] none)
    let underWay := s.cycle.state = .measuring ∨ s.cycle.state = .cutting ∨
      (s.cycle.state = .feeding ∧ s.cycle.runActive = true)
    (underWay →
      (s.cycle.reasons.request = true → answer .noChange) ∧
      (s.cycle.reasons.request = false → s.cycle.stopPending = true → answer .refusedState) ∧
      (s.cycle.reasons.request = false → s.cycle.stopPending = false →
        let t : State := { s with cycle := { s.cycle with reasons := { s.cycle.reasons with request := true } } }
        exec (.suspend tag) s = .next (t.queueReply 0x22 tag .ok [] none) ∧ t.suspendPending = true)) ∧
    (s.cycle.state = .suspended → answer .noChange) ∧
    (¬ underWay → s.cycle.state ≠ .suspended → answer .refusedState)

/-- RESUME: a pending suspension cancelled where the planner has not stopped at an item start; REFUSED_STATE with none
pending; GUARD_OPEN and NOT_HOMED in SUSPENDED and HELD; from SUSPENDED, resume point SETTLE begins a settle and FEED a
run feed of one window (R93, R107, R127). At resume point CONTINUE and from the holds of the readying the readying is
continued: MISSED marks become UNREAD, and with every mark read, every band usable and no seam pending it is READY at
once and the planner issues; otherwise the first mark, LEFT of the span's first row, is searched when it is UNREAD (R59,
R107, R108). With the planner stopped at an item start, the pending reasons go and it issues at once (R107). From
HELD(RECOVER) an owed feed goes first, and with none owed the window is re-entered; from HELD(PLAN_FULL) the settle
begins with a worklist, and a plan that is still too long holds again (R81, R108, R109). -/
def Obligations.ResumeGoesOn : Prop :=
  (∀ (s : State) (tag : Byte), s.ready → s.cycleSafe = true →
     let answer (status : Status) : Prop := exec (.resume tag) s = .next (s.queueReply 0x23 tag status [] none)
     let waiting := s.cycle.state = .suspended ∨ s.cycle.state = .held
     ((s.cycle.state = .measuring ∨ s.cycle.state = .cutting ∨ s.cycle.state = .feeding) →
       (s.suspendPending = false → answer .refusedState) ∧
       (s.suspendPending = true → (∀ w, s.plan.worklist = some w → w.stopped = false) →
         exec (.resume tag) s = .next ({ s with
           cycle := { s.cycle with reasons := ⟨false, false, false⟩, halts := 0 } }.queueReply 0x23 tag .ok [] none))) ∧
     ((s.cycle.state = .idle ∨ s.cycle.state = .homing ∨ s.cycle.state = .halted ∨ s.cycle.state = .testcut) →
       answer .refusedState) ∧
     (waiting → (s.bed.lines.get 1).taken = true → answer .guardOpen) ∧
     (waiting → (s.bed.lines.get 1).taken = false → s.motion.homed = false → answer .notHomed) ∧
     (∀ taken, s.cycle.state = .suspended → (s.bed.lines.get 1).taken = false → s.motion.homed = true →
       s.cycle.taken = some taken →
       (taken.resume = .settle → 0 < s.cycle.vacSettle →
         exec (.resume tag) s = .next ({ s with
           cycle := { s.cycle with
             state := .measuring, taken := none, phase := .settle, settleTimer := some s.cycle.vacSettle }
           bed := { s.bed with
             zones := s.bed.zones.map fun z on => on || windowZone s.nest.params z } }.queueReply 0x23 tag .ok [] none)) ∧
       (taken.resume = .feed → s.motion.queue = [] → (s.bed.lines.get 3).taken = false →
         let distance := s.nest.params.windowLength / s.nest.params.markPitch * s.nest.params.markPitch
         exec (.resume tag) s = .next ({ s with
           cycle := { s.cycle with state := .feeding, taken := none, feedJob := some ⟨.run, 1⟩ }
           motion := { s.motion with
             queue := [.feed distance], executing := true, speed := none, kiss := .raised, thru := .raised
             commanded := some distance, encoder := 0, guardTimer := some s.motion.params.feedGuardTime }
           bed := { s.bed with
             toolKiss := none, toolThru := none, feedDrive := true
             zones := Table.fill 4 false } }.queueReply 0x23 tag .ok [] none)))) ∧
  (∀ (s : State) (tag : Byte) (sp : Span), s.ready → s.cycleSafe = true → (s.bed.lines.get 1).taken = false →
     s.motion.homed = true → s.motion.queue = [] → s.cycle.stopPending = false → s.marks.span = some sp →
     (s.cycle.hold = some .markMissed ∨ s.cycle.hold = some .markGeometry ∨ s.cycle.hold = some .seamDeviation ∨
       ∃ taken, s.cycle.taken = some taken ∧ taken.resume = .continue) →
     (∀ w target, s.marks.seam = none → sp.first < sp.last →
       (∀ i, sp.first ≤ i → i < sp.last → s.marks.usable i = true) → s.plan.worklist = some w →
       s.travelDueTo w target → ∃ t, exec (.resume tag) s = .next t ∧ t.cycle.state = .cutting ∧
         t.motion.queue.head? = some (.travel .planner target) ∧ t.motion.executing = true ∧ t.cycle.hold = none ∧
         t.cycle.taken = none ∧ t.marks = s.marks) ∧
     (∀ row rect, s.marks.rows[sp.first]? = some row → sp.first ≤ sp.last →
       (row.left.state = .missed ∨ row.left.state = .unread) →
       let tries := if row.left.state = .missed then 0 else row.left.attempts
       clipToBed (searchSquare s.marks.searchSize tries
         (nominalBed s.nest.params s.cycle.pointer sp.first .left)) = some rect →
       ∃ t, exec (.resume tag) s = .next t ∧ t.cycle.state = .measuring ∧ t.cycle.phase = .readying ∧
         t.cycle.hold = none ∧ t.cycle.taken = none ∧ t.motion.queue = [.search rect] ∧ t.motion.executing = true ∧
         t.marks.flight = some ⟨sp.first, .left, tries + 1, rect⟩ ∧ t.marks.seam = s.marks.seam ∧
         (∀ i side m, s.marks.mark i side = some m → (i ≠ sp.first ∨ side = .right) →
           t.marks.mark i side = some (if sp.first ≤ i ∧ i ≤ sp.last ∧ m.state = .missed then
             { m with state := .unread, attempts := 0 } else m)))) ∧
  (∀ (s : State) (tag : Byte) (w : Worklist) (target : BedPos), s.ready → s.cycleSafe = true →
     s.cycle.state = .cutting → s.suspendPending = true → s.cycle.stopPending = false → s.plan.worklist = some w →
     w.stopped = true → s.travelDueTo w target → s.motion.queue.length < 32 → (s.bed.lines.get 1).taken = false →
     s.motion.homed = true → ∃ t, exec (.resume tag) s = .next t ∧ t.cycle.state = .cutting ∧
       t.cycle.reasons.request = false ∧
       t.motion.queue.take (s.motion.queue.length + 1) = s.motion.queue ++ [.travel .planner target]) ∧
  (∀ (s : State) (tag : Byte), s.ready → s.cycleSafe = true → s.cycle.state = .held →
     (s.bed.lines.get 1).taken = false → s.motion.homed = true → s.motion.queue = [] → s.suspendPending = false →
     let settled : State := { s with
       cycle := { s.cycle with
         state := .measuring, hold := none, phase := .settle, settleTimer := some s.cycle.vacSettle }
       bed := { s.bed with
         beacon := false, zones := s.bed.zones.map fun z on => on || windowZone s.nest.params z } }
     (s.cycle.hold = some .recover →
       (0 < s.cycle.owed → 0 < s.cycle.remainder → (s.bed.lines.get 3).taken = false →
         exec (.resume tag) s = .next ({ s with
           cycle := { s.cycle with state := .feeding, hold := none, feedJob := some ⟨.owed, s.cycle.owed⟩ }
           motion := { s.motion with
             queue := [.feed s.cycle.remainder.toNat], executing := true, speed := none, kiss := .raised
             thru := .raised, commanded := some s.cycle.remainder.toNat, encoder := 0
             guardTimer := some s.motion.params.feedGuardTime }
           bed := { s.bed with
             toolKiss := none, toolThru := none, feedDrive := true, beacon := false
             zones := Table.fill 4 false } }.queueReply 0x23 tag .ok [] none)) ∧
       (∀ w, s.cycle.owed = 0 → s.plan.worklist = some w → w.window = s.cycle.pointer →
         (∃ it ∈ w.items, it.state = .pending ∨ it.state = .active) → 0 < s.cycle.vacSettle →
         exec (.resume tag) s = .next (State.queueNotice (windowStartNotice w.window w.items.length) ({ settled with
           plan := { s.plan with worklist := some { w.rewind with startPassed := none, stopped := false } }
           marks := s.marks.openWindow s.cycle.pointer s.windowSpan none }.queueReply 0x23 tag .ok [] none)))) ∧
     (s.cycle.hold = some .planFull →
       (∀ w, s.plan.worklist = some w → (∃ it ∈ w.items, it.state = .pending ∨ it.state = .active) →
         0 < s.cycle.vacSettle → exec (.resume tag) s = .next (settled.queueReply 0x23 tag .ok [] none)) ∧
       (s.plan.worklist = none → 256 < (s.builtItems s.cycle.pointer).length →
         exec (.resume tag) s = .next (State.queueNotice
           (heldNotice .planFull s.cycle.pointer (be16 (s.builtItems s.cycle.pointer).length)) ({ s with
             cycle := { s.cycle with reasons := ⟨false, false, false⟩, halts := 0 }
             motion := { s.motion with kiss := .raised, thru := .raised }
             bed := { s.bed with toolKiss := none, toolThru := none } }.queueReply 0x23 tag .ok [] none)))))

/-- STOP_CUT: REFUSED_STATE and NO_CHANGE as R111 says; in SUSPENDED and HELD, and with no entry of the run executing,
it takes effect at once, a JOG's TRAVEL and what stands behind it that is not the planner's staying queued (the model's
reading of a SEARCH or FEED behind a JOG: log 11); while an entry of the run executes it is set pending, the pending
reasons cleared and the planner's unstarted entries withdrawn (R63, R85, R111, R119). What becoming UNREAD and UNCHECKED
is for the marks and bands of the window invalidated (R63). -/
def Obligations.StopCutEndsRun : Prop :=
  (∀ (s : State) (tag : Byte), s.ready → s.cycleSafe = true →
     let answer (status : Status) : Prop := exec (.stopCut tag) s = .next (s.queueReply 0x24 tag status [] none)
     let underWay := s.cycle.state = .measuring ∨ s.cycle.state = .cutting ∨
       (s.cycle.state = .feeding ∧ s.cycle.runActive = true)
     let rewound : Planner := { s.plan with worklist := s.plan.worklist.map Worklist.rewind }
     (¬ underWay → s.cycle.state ≠ .suspended → s.cycle.state ≠ .held → answer .refusedState) ∧
     (underWay → s.cycle.stopPending = true → answer .noChange) ∧
     ((s.cycle.state = .suspended ∨ s.cycle.state = .held) → s.motion.queue = [] →
       exec (.stopCut tag) s = .next ({ s with
         cycle := { s.cycle with
           state := .idle, runActive := false, stopPending := false, hold := none, taken := none
           reasons := ⟨false, false, false⟩, halts := 0, feedJob := none }
         plan := rewound
         marks := s.marks.invalidate s.currentRows
         motion := { s.motion with kiss := .raised, thru := .raised }
         bed := { s.bed with
           toolKiss := none, toolThru := none, zones := Table.fill 4 false, beacon := false } }.queueReply 0x24 tag .ok []
             none)) ∧
     (∀ e rest, underWay → s.cycle.stopPending = false → s.motion.queue = e :: rest →
       (e.producer = .planner ∨ e.producer = .mark ∨ e.kind = .feed) →
       exec (.stopCut tag) s = .next ({ s with
         cycle := { s.cycle with reasons := ⟨false, false, false⟩, halts := 0, stopPending := true }
         plan := rewound
         motion := { s.motion with queue := e :: rest.filter fun x => decide (x.producer ≠ Producer.planner) } }.queueReply 0x24
           tag .ok [] none))) ∧
  (∀ (s : State) (tag : Byte) (ahead : List BedPos) (rest : List Entry), s.ready → s.cycleSafe = true →
     (s.cycle.state = .suspended ∨ s.cycle.state = .held ∨ (s.cycle.stopPending = false ∧
       (s.cycle.state = .measuring ∨ s.cycle.state = .cutting ∨
         (s.cycle.state = .feeding ∧ s.cycle.runActive = true)))) →
     ahead.length ≤ 1 → (ahead = [] → rest = []) → s.motion.queue = ahead.map (Entry.travel .cycle) ++ rest →
     let left := rest.filter fun e => decide (e.producer ≠ Producer.planner)
     exec (.stopCut tag) s = .next ({ s with
       cycle := { s.cycle with
         state := .idle, runActive := false, stopPending := false, hold := none, taken := none, settleTimer := none
         reasons := ⟨false, false, false⟩, halts := 0
         feedJob := if ∃ e ∈ left, e.kind = EntryKind.feed then s.cycle.feedJob else none }
       plan := { s.plan with worklist := s.plan.worklist.map Worklist.rewind }
       marks := s.marks.invalidate s.currentRows
       motion := { s.motion with queue := ahead.map (Entry.travel .cycle) ++ left, kiss := .raised, thru := .raised }
       bed := { s.bed with
         toolKiss := none, toolThru := none, zones := Table.fill 4 false, beacon := false } }.queueReply 0x24 tag .ok []
           none)) ∧
  (∀ (mu : MarkUnit),
     let unread (m : Mark) : Mark := ⟨.unread, none, m.previous, 0⟩
     (∀ span, mu.invalidate span = { mu with
       rows := (mu.invalidate span).rows, bands := (mu.invalidate span).bands, flight := none, seam := none }) ∧
     (mu.invalidate none).rows = mu.rows ∧ (mu.invalidate none).bands = mu.bands ∧
     (∀ sp, (mu.invalidate (some sp)).rows = mu.rows.mapIdx fun i r =>
       if sp.first ≤ i ∧ i ≤ sp.last then ⟨unread r.left, unread r.right⟩ else r) ∧
     (∀ sp i, i < mu.bands.length → sp.first ≤ i → i < sp.last →
       (mu.invalidate (some sp)).bands[i]? = some .unchecked) ∧
     (∀ sp i, (i + 1 < sp.first ∨ sp.last < i) → (mu.invalidate (some sp)).bands[i]? = mu.bands[i]?))

/-- SKIP_PANEL: the checks of R112 in order; elsewhere than in HELD(PLAN_FULL) the panel becomes SKIPPED, its live items
SKIPPED, and the reply carries how many (R90, R112). In HELD(PLAN_FULL) the window is built without the panel, and the
reply carries the outcome too: FULL leaves no worklist, ITEMS or EMPTY keeps the one built, its CYCLE notice behind the
reply (R81, R112; the build at every SKIP_PANEL is log 13, the widths of the data log 9, the order log 6). -/
def Obligations.SkipPanelSkips : Prop :=
  (∀ (s : State) (tag slot : Byte), s.ready →
     let answer (status : Status) : Prop := exec (.skipPanel tag slot) s = .next (s.queueReply 0x25 tag status [] none)
     let standing := s.cycle.state = .idle ∨ s.cycle.state = .suspended ∨ s.cycle.state = .held
     (95 < slot.toNat → answer .badArg) ∧
     (∀ i : Slot, slot.toNat = i.val →
       let p := s.panel i
       (¬ standing → answer .refusedState) ∧
       (standing → p.lock ≠ .committed → answer .locked) ∧
       (standing → p.lock = .committed →
         (p.state = .skipped → answer .noChange) ∧
         (p.state = .cut → answer .refusedState) ∧
         (p.state ≠ .skipped → p.state ≠ .cut → ¬ (s.cycle.state = .held ∧ s.cycle.hold = some .planFull) →
           ∃ (worklist : Option Worklist) (count : Nat),
             exec (.skipPanel tag slot) s = .next ({ s with
               store := { s.store with
                 panels := s.store.panels.set i { p with state := .skipped, windowsLeft := none } }
               plan := { s.plan with worklist := worklist } }.queueReply 0x25 tag .ok (be16 count) none) ∧
             (s.plan.worklist = none → worklist = none ∧ count = 0) ∧
             (∀ w, s.plan.worklist = some w → ∃ v, worklist = some v ∧ v.window = w.window ∧
               v.completed = w.completed ∧
               count = w.items.countP (fun it => it.slot = i && (it.state = .pending || it.state = .active)) ∧
               v.items = w.items.map (fun it =>
                 if it.slot = i ∧ (it.state = .pending ∨ it.state = .active) then { it with state := .skipped }
                 else it) ∧
               v.issue = (if v.cursorIndex = w.cursorIndex then w.issue else issueAt v.items v.cursorIndex)))))) ∧
  (∀ (s : State) (tag slot : Byte) (i : Slot), s.ready → slot.toNat = i.val → s.cycle.state = .held →
     s.cycle.hold = some .planFull → (s.panel i).lock = .committed → (s.panel i).state ≠ .skipped →
     (s.panel i).state ≠ .cut →
     let skipped (worklist : Option Worklist) : State := { s with
       store := { s.store with
         panels := s.store.panels.set i { s.panel i with state := .skipped, windowsLeft := none } }
       plan := { s.plan with worklist := worklist } }
     let k := s.cycle.pointer
     let items := (skipped none).builtItems k
     let count := match s.plan.worklist with
       | none => 0
       | some w => w.items.countP fun it => it.slot = i && (it.state = .pending || it.state = .active)
     (256 < items.length → exec (.skipPanel tag slot) s =
       .next ((skipped none).queueReply 0x25 tag .ok (be16 count ++ 2 :: be16 items.length) none)) ∧
     (items.length ≤ 256 → exec (.skipPanel tag slot) s =
       .next (State.queueNotice (windowStartNotice k items.length)
         ((skipped (some ⟨k, items, false, issueAt items (if items = [] then none else some 0), none, false,
           s.plan.weedDistance, s.nest.params.lead + (s.marks.rows.length - 1) * s.nest.params.markPitch⟩)).queueReply
           0x25 tag .ok (be16 count ++ (if items = [] then 1 else 0) :: be16 items.length) none))))

/-- JOB_CLEAR: the checks of R116 in order; taken, the job is cleared in every unit and everything else is kept (R21,
R116). -/
def Obligations.JobClearClears : Prop :=
  ∀ (s : State) (tag : Byte), s.ready →
    let answer (status : Status) : Prop := exec (.jobClear tag) s = .next (s.queueReply 0x2F tag status [] none)
    let locked := (∃ i, (s.panel i).lock = .committed) ∧ (s.bed.lines.get 4).taken = false
    (s.cycle.state ≠ .idle → answer .refusedState) ∧
    (s.cycle.state = .idle → s.store.loader ≠ none → answer .refusedState) ∧
    (s.cycle.state = .idle → s.store.loader = none → s.nest.run ≠ none → answer .nestBusy) ∧
    (s.cycle.state = .idle → s.store.loader = none → s.nest.run = none → locked → answer .locked) ∧
    (s.cycle.state = .idle → s.store.loader = none → s.nest.run = none → ¬ locked →
      exec (.jobClear tag) s = .next ({ s with
        store := { s.store with panels := Table.fill 96 Panel.emptyRecord, free := List.range 512 }
        nest := { s.nest with skyline := [] }
        marks := { s.marks with rows := [], bands := [], span := none, seam := none, flight := none }
        plan := { s.plan with worklist := none }
        cycle := { s.cycle with pointer := 0, remainder := 0, owed := 0 } }.queueReply 0x2F tag .ok [] none))

/-- SETTLE_EXPIRY: no effect while the timer is stopped (log 20); with VAC_OK low the VACUUM_LOST fault (SETTLE); with a
suspension pending it is taken with CONTINUE; else the readying begins with the search of the first mark, LEFT of the
span's first row, when it is UNREAD (R56, R93, R97, R105). -/
def Obligations.SettleExpiryActs : Prop :=
  ∀ (s : State), s.atRest → s.cycleSafe = true → s.motion.queue = [] →
    (s.cycle.settleTimer = none → exec .settleExpiry s = .next s) ∧
    (s.cycle.settleTimer ≠ none → s.cycle.phase = .settle → (s.bed.lines.get 2).taken = false → ∃ t r,
      exec .settleExpiry s = .next t ∧ t.cycle.state = .halted ∧ t.cycle.fault = some r ∧ r.kind = .vacuumLost ∧
      r.detail = .vacuum true ∧ r.stateAtEntry = .measuring ∧ t.cycle.settleTimer = none) ∧
    (s.cycle.settleTimer ≠ none → s.cycle.phase = .settle → (s.bed.lines.get 2).taken = true →
      (s.suspendPending = true → ∃ t, exec .settleExpiry s = .next t ∧ t.cycle.state = .suspended ∧
        t.cycle.taken = some ⟨s.cycle.reasons, s.cycle.halts, .continue⟩ ∧
        t.cycle.reasons = ⟨false, false, false⟩ ∧ t.cycle.settleTimer = none ∧ t.motion.queue = [] ∧
        t.bed.zones = s.bed.zones ∧ t.marks = s.marks) ∧
      (∀ sp row m rect, s.suspendPending = false → s.cycle.stopPending = false → s.motion.homed = true →
        (s.bed.lines.get 1).taken = false → s.marks.span = some sp → sp.first ≤ sp.last →
        s.marks.rows[sp.first]? = some row → row.left = m → m.state = .unread →
        clipToBed (searchSquare s.marks.searchSize m.attempts
          (nominalBed s.nest.params s.cycle.pointer sp.first .left)) = some rect →
        ∃ t, exec .settleExpiry s = .next t ∧ t.cycle.state = .measuring ∧ t.cycle.phase = .readying ∧
          t.cycle.settleTimer = none ∧ t.motion.queue = [.search rect] ∧ t.motion.executing = true ∧
          t.marks.flight = some ⟨sp.first, .left, m.attempts + 1, rect⟩ ∧
          t.marks.rows = s.marks.rows.set sp.first ⟨{ m with attempts := m.attempts + 1 }, row.right⟩ ∧
          t.bed.zones = s.bed.zones ∧ t.link = s.link))

/-! ### The mark unit -/

/-- MARK_SET and MARK_TAKE: their checks in order; taken, the mark becomes SET at the position given, or at the head
position, in the current window; a position from an earlier window moves into the previous field; the bands of the row
take UNCHECKED; the reply carries the entry (R52, R66, R67). A side byte above 1 is BAD_ARG. -/
def Obligations.MarksGivenByHost : Prop :=
  (∀ (s : State) (tag row side : Byte) (x y : Word) (sd : Side), s.ready → side.toNat = sd.code →
     let setAnswer (status : Status) : Prop :=
       exec (.markSet tag row side x y) s = .next (s.queueReply 0x29 tag status [] none)
     let takeAnswer (status : Status) : Prop :=
       exec (.markTake tag row side) s = .next (s.queueReply 0x2A tag status [] none)
     let standing := s.cycle.state = .idle ∨ s.cycle.state = .suspended ∨ s.cycle.state = .held
     let onBed := x.toNat ≤ 165000 ∧ y.toNat ≤ 260000
     let current := ∃ sp, s.currentRows = some sp ∧ sp.first ≤ row.toNat ∧ row.toNat ≤ sp.last ∧
       row.toNat < s.marks.rows.length
     let given (k : Nat) (m : Mark) (pos : BedPos) : Mark :=
       ⟨.set, some ⟨pos, k⟩, (match m.measured with
         | some q => if q.window < k then some q else m.previous
         | none => m.previous), m.attempts⟩
     let marked (r : MarkRow) (m : Mark) : State := { s with marks := { s.marks with
       rows := s.marks.rows.set row.toNat (r.set sd m)
       bands := s.marks.bands.mapIdx fun i g => if i = row.toNat ∨ i + 1 = row.toNat then .unchecked else g } }
     ((99 < row.toNat ∨ ¬ onBed) → setAnswer .badArg) ∧
     (99 < row.toNat → takeAnswer .badArg) ∧
     (row.toNat ≤ 99 → ¬ standing → takeAnswer .refusedState ∧ (onBed → setAnswer .refusedState)) ∧
     (row.toNat ≤ 99 → standing → ¬ current → takeAnswer .badArg ∧ (onBed → setAnswer .badArg)) ∧
     (row.toNat ≤ 99 → standing → current →
       (s.motion.homed = false → takeAnswer .notHomed) ∧
       (s.motion.homed = true → s.motion.executing = true → takeAnswer .busy) ∧
       (∀ r, s.marks.rows[row.toNat]? = some r →
         (onBed →
           let m := given s.cycle.pointer (r.get sd) ⟨x.toNat, y.toNat⟩
           exec (.markSet tag row side x y) s =
             .next ((marked r m).queueReply 0x29 tag .ok (markEntry s.nest.params row.toNat sd m) none)) ∧
         (∀ pos, s.motion.homed = true → s.motion.executing = false → s.motion.head = some pos →
           let m := given s.cycle.pointer (r.get sd) pos
           exec (.markTake tag row side) s =
             .next ((marked r m).queueReply 0x2A tag .ok (markEntry s.nest.params row.toNat sd m) none))))) ∧
  (∀ (s : State) (tag row side : Byte) (x y : Word), s.ready → 1 < side.toNat →
     exec (.markSet tag row side x y) s = .next (s.queueReply 0x29 tag .badArg [] none) ∧
     exec (.markTake tag row side) s = .next (s.queueReply 0x2A tag .badArg [] none))

/-- ACCEPT_SEAM: its checks in order; taken in HELD(SEAM_DEVIATION), the reply is OK, the seam pending record stands
clear and the cut is not held for the seam any more, whatever the continued readying brings (R59, R68). REMEASURE:
REFUSED_STATE elsewhere than in SUSPENDED and the holds of the readying; in SUSPENDED every mark of the current window
becomes UNREAD with attempts 0, keeping its previous field, and its bands UNCHECKED, the seam pending record kept; in a
hold the cycle goes back to the readying and the search of the span's first mark executes (R69). With no span fixed a
REMEASURE in SUSPENDED acts on the rows that R52 gives the mark requests of its section (DEDUCED, log 30). -/
def Obligations.SeamAcceptedAndRemeasured : Prop :=
  (∀ (s : State) (tag : Byte), s.ready →
     let answer (status : Status) : Prop := exec (.acceptSeam tag) s = .next (s.queueReply 0x2B tag status [] none)
     let held := s.cycle.state = .held ∧ s.cycle.hold = some .seamDeviation
     (¬ held → answer .refusedState) ∧
     (held → (s.bed.lines.get 1).taken = true → answer .guardOpen) ∧
     (held → (s.bed.lines.get 1).taken = false → s.motion.homed = false → answer .notHomed) ∧
     (held → (s.bed.lines.get 1).taken = false → s.motion.homed = true → ∃ t digest notices,
       exec (.acceptSeam tag) s = .next t ∧ t.marks.seam = none ∧ t.cycle.hold ≠ some .seamDeviation ∧
       t.link.outbound = s.link.outbound ++ ⟨0xAB, tag, 0 :: digest, none⟩ :: notices)) ∧
  (∀ (s : State) (tag : Byte), s.ready → s.cycleSafe = true →
     let answer (status : Status) : Prop := exec (.remeasure tag) s = .next (s.queueReply 0x2C tag status [] none)
     let inHold := s.cycle.state = .held ∧ (s.cycle.hold = some .markMissed ∨ s.cycle.hold = some .markGeometry ∨
       s.cycle.hold = some .seamDeviation)
     let unread (m : Mark) : Mark := ⟨.unread, none, m.previous, 0⟩
     (s.cycle.state ≠ .suspended → ¬ inHold → answer .refusedState) ∧
     (inHold → (s.bed.lines.get 1).taken = true → answer .guardOpen) ∧
     (inHold → (s.bed.lines.get 1).taken = false → s.motion.homed = false → answer .notHomed) ∧
     (∀ sp, s.currentRows = some sp → s.marks.bandsSafe = true → sp.last < s.marks.rows.length →
       let rows := s.marks.rows.mapIdx fun i r =>
         if sp.first ≤ i ∧ i ≤ sp.last then ⟨unread r.left, unread r.right⟩ else r
       (s.cycle.state = .suspended → ∃ bands,
         exec (.remeasure tag) s = .next ({ s with
           marks := { s.marks with rows := rows, bands := bands, flight := none } }.queueReply 0x2C tag .ok [] none) ∧
         (∀ i, sp.first ≤ i → i < sp.last → bands[i]? = some .unchecked) ∧
         (∀ i, (i + 1 < sp.first ∨ sp.last < i) → bands[i]? = s.marks.bands[i]?)) ∧
       (∀ rect, inHold → (s.bed.lines.get 1).taken = false → s.motion.homed = true → s.motion.queue = [] →
         s.cycle.stopPending = false → s.marks.span = some sp → sp.first ≤ sp.last →
         clipToBed (searchSquare s.marks.searchSize 0 (nominalBed s.nest.params s.cycle.pointer sp.first .left)) =
           some rect →
         ∃ t digest, exec (.remeasure tag) s = .next t ∧ t.cycle.state = .measuring ∧ t.cycle.phase = .readying ∧
           t.cycle.hold = none ∧ t.marks.seam = s.marks.seam ∧ t.motion.queue = [.search rect] ∧
           t.motion.executing = true ∧ t.marks.flight = some ⟨sp.first, .left, 1, rect⟩ ∧
           (∀ i, i ≠ sp.first → t.marks.rows[i]? = rows[i]?) ∧
           t.link.outbound = s.link.outbound ++ [⟨0xAC, tag, 0 :: digest, none⟩])))

/-- MARK_SENSOR_REPORT while a SEARCH executes: outside the rectangle it is disregarded; inside, both corners included,
the mark in flight becomes READ there, rounded, in the current window, and a pending suspension is taken with CONTINUE
(R57, R97, R105, R124). SEARCH_SCAN_END while a SEARCH executes: after one attempt the mark stays UNREAD as it was, here
with a suspension pending, which is taken; after two it becomes MISSED and the readying ends in HELD(MARK_MISSED) with
the row and side in the notice (R57, R62, R97, R98). With no SEARCH executing it is disregarded (R124). With nothing
pending a mark found leads on to the search of the first UNREAD mark at its search centre; with none left, to
HELD(SEAM_DEVIATION) with the deviation rounded and its side, to HELD(MARK_GEOMETRY) with the first band that fails, or
to CUTTING, the planner issuing (R56, R57, R60 to R62, R98). A first attempt that finds nothing leads to the second in
the double square (R56, R57). The first mark in a state, and the search centre (R56). The seam check: it passes where no
deviation taken is above SEAM_TOL, else gives the greatest (R60; a tie's side is the free value of log 10). The geometry
check band by band: the four ratios in order, within 1 ± GEOM_TOL exactly, a failing one in parts per million, rounded
(R61); a distance is rounded to the nearest count (0-5.2). -/
def Obligations.SearchReadsOrMissesMark : Prop :=
  (∀ (s : State) (x y : Rat) (r : Rect), s.atRest → s.cycleSafe = true → s.motion.queue = [.search r] →
     let inside := (r.x0 : Rat) ≤ x ∧ x ≤ r.x1 ∧ (r.y0 : Rat) ≤ y ∧ y ≤ r.y1
     (¬ inside → exec (.markSensorReport x y) s = .next s) ∧
     (∀ f row, inside → s.marks.flight = some f → s.marks.rows[f.row]? = some row → s.cycle.state = .measuring →
       s.cycle.phase = .readying → s.cycle.stopPending = false → s.suspendPending = true → ∃ t pos,
         exec (.markSensorReport x y) s = .next t ∧ roundsTo x pos.x ∧ roundsTo y pos.y ∧
         t.marks.rows = s.marks.rows.set f.row
           (row.set f.side { row.get f.side with state := .read, measured := some ⟨pos, s.cycle.pointer⟩ }) ∧
         (∀ i, (i = f.row ∨ i + 1 = f.row) → i < s.marks.bands.length → t.marks.bands[i]? = some .unchecked) ∧
         t.marks.flight = none ∧ t.motion.queue = [] ∧ t.motion.executing = false ∧ t.cycle.state = .suspended ∧
         t.cycle.taken = some ⟨s.cycle.reasons, s.cycle.halts, .continue⟩ ∧ t.cycle.reasons = ⟨false, false, false⟩)) ∧
  (∀ (s : State), s.atRest → s.cycleSafe = true →
     (s.motion.queue = [] → exec .searchScanEnd s = .next s) ∧
     (∀ r f row, s.motion.queue = [.search r] → s.marks.flight = some f → s.marks.rows[f.row]? = some row →
       (row.get f.side).state = .unread → s.cycle.state = .measuring → s.cycle.phase = .readying →
       s.cycle.stopPending = false →
       ((row.get f.side).attempts = 1 → s.suspendPending = true → ∃ t,
         exec .searchScanEnd s = .next t ∧ t.marks = { s.marks with flight := none } ∧ t.motion.queue = [] ∧
         t.cycle.state = .suspended ∧ t.cycle.taken = some ⟨s.cycle.reasons, s.cycle.halts, .continue⟩) ∧
       ((row.get f.side).attempts = 2 → ∃ t, exec .searchScanEnd s = .next t ∧
         t.marks.rows = s.marks.rows.set f.row (row.set f.side { row.get f.side with state := .missed }) ∧
         t.marks.flight = none ∧ t.motion.queue = [] ∧ t.cycle.state = .held ∧ t.cycle.hold = some .markMissed ∧
         t.cycle.reasons = ⟨false, false, false⟩ ∧ t.bed.beacon = true ∧
         t.link = s.link.queueNotice ⟨0x67, 0, [1, u8 s.cycle.pointer, u8 f.row, u8 f.side.code, 0, 0, 0, 0, 0, 0, 0, 0],
           none⟩))) ∧
  (∀ (s : State) (x y : Rat) (r : Rect) (f : SearchInFlight) (row : MarkRow) (pos : BedPos) (sp : Span), s.atRest →
     s.cycleSafe = true → s.motion.queue = [.search r] → (r.x0 : Rat) ≤ x → x ≤ r.x1 → (r.y0 : Rat) ≤ y → y ≤ r.y1 →
     roundsTo x pos.x → roundsTo y pos.y → s.marks.flight = some f → s.marks.rows[f.row]? = some row →
     s.cycle.state = .measuring → s.cycle.phase = .readying → s.cycle.stopPending = false → s.suspendPending = false →
     (s.bed.lines.get 1).taken = false → s.motion.homed = true → s.marks.span = some sp → sp.first < sp.last →
     sp.first ≤ f.row → f.row ≤ sp.last →
     let lp := s.nest.params
     let k := s.cycle.pointer
     let mu := ({ s.marks with flight := none }.setMark f.row f.side
       { row.get f.side with state := .read, measured := some ⟨pos, k⟩ }).uncheckRow f.row
     let checked := { mu with seam := none }.checkSpan lp
     let held (t : State) (reason : HoldReason) (detail : List Byte) : Prop :=
       t.cycle.state = .held ∧ t.cycle.hold = some reason ∧ t.cycle.reasons = ⟨false, false, false⟩ ∧
       t.motion.queue = [] ∧ t.bed.beacon = true ∧ t.bed.zones = s.bed.zones ∧
       t.link = s.link.queueNotice (heldNotice reason k detail)
     (∀ i side m rect, mu.firstIn .unread = some (i, side) → mu.mark i side = some m →
       clipToBed (searchSquare s.marks.searchSize m.attempts (mu.searchCentre lp k i side)) = some rect →
       ∃ t, exec (.markSensorReport x y) s = .next t ∧ t.cycle = s.cycle ∧ t.motion.queue = [.search rect] ∧
         t.motion.executing = true ∧ t.marks = { mu.setMark i side { m with attempts := m.attempts + 1 } with
           flight := some ⟨i, side, m.attempts + 1, rect⟩ }) ∧
     (mu.firstIn .unread = none → mu.firstIn .missed = none →
       (∀ d side, mu.seamFailure = some (d, side) → ∃ t, exec (.markSensorReport x y) s = .next t ∧
         held t .seamDeviation (be32 (roundSqrtDiv d 1) ++ [u8 side.code]) ∧ t.marks = mu) ∧
       (∀ band kind ppm, mu.seamFailure = none → checked.firstFailure = some (band, kind, ppm) →
         ∃ t, exec (.markSensorReport x y) s = .next t ∧
           held t .markGeometry ([u8 band, u8 kind.code] ++ be32 ppm) ∧ t.marks = checked) ∧
       (∀ w target, mu.seamFailure = none → checked.firstFailure = none → s.plan.worklist = some w →
         ({ s with marks := checked } : State).travelDueTo w target → ∃ t, exec (.markSensorReport x y) s = .next t ∧
           t.cycle.state = .cutting ∧ t.motion.queue.head? = some (.travel .planner target) ∧
           t.motion.executing = true ∧ t.marks = checked))) ∧
  (∀ (s : State) (r : Rect) (f : SearchInFlight) (m : Mark) (rect : Rect), s.atRest → s.cycleSafe = true →
     s.motion.queue = [.search r] → s.marks.flight = some f → s.marks.mark f.row f.side = some m →
     s.marks.firstIn .unread = some (f.row, f.side) → m.attempts = 1 → s.cycle.state = .measuring →
     s.cycle.phase = .readying → s.cycle.stopPending = false → s.suspendPending = false →
     (s.bed.lines.get 1).taken = false → s.motion.homed = true →
     clipToBed (searchSquare s.marks.searchSize 1
       (s.marks.searchCentre s.nest.params s.cycle.pointer f.row f.side)) = some rect →
     ∃ t, exec .searchScanEnd s = .next t ∧ t.cycle = s.cycle ∧ t.motion.queue = [.search rect] ∧
       t.motion.executing = true ∧ t.marks = { s.marks.setMark f.row f.side { m with attempts := 2 } with
         flight := some ⟨f.row, f.side, 2, rect⟩ }) ∧
  (∀ (mu : MarkUnit) (sp : Span), mu.span = some sp →
     (∀ st i side, mu.firstIn st = some (i, side) ↔ (sp.first ≤ i ∧ i ≤ sp.last ∧
       (∃ m, mu.mark i side = some m ∧ m.state = st) ∧
       ∀ j other m, sp.first ≤ j → (j < i ∨ (j = i ∧ other = .left ∧ side = .right)) → mu.mark j other = some m →
         m.state ≠ st)) ∧
     (∀ lp k i side m q, sp.first < i → i ≤ sp.last + 1 → mu.mark (i - 1) side = some m → m.measured = some q →
       let nominal := nominalBed lp k i side
       let lower := nominalBed lp k (i - 1) side
       mu.searchCentre lp k i side = (if m.state = .read ∨ m.state = .set then
         ⟨nominal.x + (q.pos.x - lower.x), nominal.y + (q.pos.y - lower.y)⟩ else nominal)) ∧
     (∀ lp k side, mu.searchCentre lp k sp.first side = nominalBed lp k sp.first side)) ∧
  (∀ (mu : MarkUnit) (sp : Span) (pend : SeamPending) (row : MarkRow), mu.span = some sp → mu.seam = some pend →
     mu.rows[sp.first]? = some row →
     let deviation (side : Side) : Option Int := match (row.get side).previous, (row.get side).measured with
       | some q, some now => if q.window + 1 = pend.window then
           some ((now.pos.x - q.pos.x) ^ 2 + (now.pos.y - (q.pos.y - pend.advance)) ^ 2) else none
       | _, _ => none
     (mu.seamFailure = none ↔ ∀ side d, deviation side = some d → d ≤ (mu.seamTol : Int) ^ 2) ∧
     (∀ d side, mu.seamFailure = some (d, side) → deviation side = some (d : Int) ∧ mu.seamTol ^ 2 < d ∧
       ∀ other e, deviation other = some e → e ≤ (d : Int))) ∧
  (∀ (mu : MarkUnit) (lp : LayoutParams) (sp : Span), mu.span = some sp →
     (∀ i, i < mu.bands.length → (mu.checkSpan lp).bands[i]? =
       if sp.first ≤ i ∧ i < sp.last then some (mu.checkBand lp i) else mu.bands[i]?) ∧
     (mu.checkSpan lp).rows = mu.rows ∧
     (∀ i a b la ra lb rb, mu.rows[i]? = some a → mu.rows[i + 1]? = some b → a.left.measured = some la →
       a.right.measured = some ra → b.left.measured = some lb → b.right.measured = some rb →
       mu.checkBand lp i = geometryOf lp mu.geomTol la.pos ra.pos lb.pos rb.pos) ∧
     (∀ i kind ppm, mu.firstFailure = some (i, kind, ppm) ↔ (sp.first ≤ i ∧ i < sp.last ∧
       mu.bands[i]? = some (.fail kind ppm) ∧
       ∀ j, sp.first ≤ j → j < i → ∀ other p, mu.bands[j]? ≠ some (.fail other p)))) ∧
  (∀ (lp : LayoutParams) (tol : Nat) (l r l' r' : BedPos), tol ≤ 10000 → 0 < lp.spacing → 0 < lp.markPitch →
     let across (a b : BedPos) : Rat := |(b.x : Rat) - a.x| / lp.spacing
     let square (a b : BedPos) : Rat := (((b.x : Rat) - a.x) ^ 2 + ((b.y : Rat) - a.y) ^ 2) / (lp.markPitch : Rat) ^ 2
     let low : Rat := 1 - tol / 10000
     let high : Rat := 1 + tol / 10000
     let widthOk (a b : BedPos) : Prop := low ≤ across a b ∧ across a b ≤ high
     let heightOk (a b : BedPos) : Prop := low ^ 2 ≤ square a b ∧ square a b ≤ high ^ 2
     let ppmOf (q : Rat) (n : Nat) : Prop := (n = 0 ∨ ((2 * n - 1 : Rat)) ^ 2 ≤ 4 * q) ∧ 4 * q < (2 * n + 1 : Rat) ^ 2
     let g := geometryOf lp tol l r l' r'
     (widthOk l r → widthOk l' r' → heightOk l l' → heightOk r r' → g = .ok) ∧
     (¬ widthOk l r → ∃ ppm : Nat, g = .fail .lowerWidth ppm ∧ roundsTo (1000000 * across l r) ppm) ∧
     (widthOk l r → ¬ widthOk l' r' → ∃ ppm : Nat, g = .fail .upperWidth ppm ∧ roundsTo (1000000 * across l' r') ppm) ∧
     (widthOk l r → widthOk l' r' → ¬ heightOk l l' → ∃ ppm : Nat, g = .fail .leftHeight ppm ∧
       ppmOf (1000000 ^ 2 * square l l') ppm) ∧
     (widthOk l r → widthOk l' r' → heightOk l l' → ¬ heightOk r r' → ∃ ppm : Nat, g = .fail .rightHeight ppm ∧
       ppmOf (1000000 ^ 2 * square r r') ppm) ∧
     (∀ d : Nat, ppmOf d (roundSqrtDiv d 1)))

/-! ### Motion -/

/-- MOVE_COMPLETION of a planner CUT that matches the cursor, with nothing left to issue and nothing pending: the head
is at the target, the cursor one segment further and its item ACTIVE, a PLACED panel goes to CUTTING with its windows
left, and the next entry executes, its tool lowered at its pressure, the other raised, at its speed (R86, R87, R120 to
R123). The last segment of a pass begins the next pass, that of the last pass makes the item DONE (R86). The last item
of the window completes it: the run feeds, or a pending suspension is taken with resume point FEED, or with nothing left
to cut the run ends in IDLE; a pending stop takes effect (R88, R99, R103, R111; that RUN_DONE gives way to a pending
stop is log 12). The window completion: windows_left, PANEL_DONE for the panels that come to CUT, CYCLE(window done) and
CYCLE(run done) (R88). The band of a point, its corrected position between the four measured marks, rounded, and the
refusal outside a usable band (R64, R65). The points and segments of forward and backward passes (R82). A planner
TRAVEL's completion: the cursors stay, and with one place free the next entry is issued behind the queue, a CUT to the
corrected far end with item, pass and segment, or the TRAVEL due at the cursor; the issue pointer goes on through
segments, passes and the items PENDING or ACTIVE; a refused correction places nothing (R83 to R86). Refused with no
planner entry queued, the window is opened again and searched, or with no rows waits in CUTTING (R83; the model's
choices: log 19, and log 32 for a suspension pending). -/
def Obligations.CutCompletionAdvancesCursor : Prop :=
  (∀ (s : State) (tool next : Tool) (target target' : BedPos) (ref : CutRef) (ref' : Option CutRef) (rest : List Entry)
     (w : Worklist) (it : Item), s.atRest → s.cycleSafe = true → s.cycle.state = .cutting →
     s.motion.queue = .cut tool target (some ref) :: .cut next target' ref' :: rest →
     s.suspendPending = false → s.cycle.stopPending = false → s.motion.homed = true →
     (s.bed.lines.get 1).taken = false → target'.onBed = true → s.plan.worklist = some w → w.issue.item = none →
     w.stopped = false → w.cursorIndex = some ref.item → w.items[ref.item]? = some it → it.passDone = ref.pass →
     it.segmentAfter it.passDone it.segDone = ref.segment → it.segDone + 1 < it.segments →
     let p := s.panel it.slot
     ∃ t v, exec .moveCompletion s = .next t ∧ t.plan.worklist = some v ∧
       v.items = w.items.set ref.item { it with segDone := it.segDone + 1, state := .active } ∧
       (p.state = .placed → t.panel it.slot = { p with
         state := .cutting, windowsLeft := some (p.lastWindow s.nest.params - s.cycle.pointer + 1) }) ∧
       (p.state ≠ .placed → t.panel it.slot = p) ∧ (∀ j, j ≠ it.slot → t.panel j = s.panel j) ∧
       t.motion.head = some target ∧ t.motion.queue = .cut next target' ref' :: rest ∧ t.motion.executing = true ∧
       t.motion.speed = some (if next = .kiss then s.motion.params.kissSpeed else s.motion.params.thruSpeed) ∧
       t.motion.kiss = (if next = .kiss then .lowered else .raised) ∧
       t.motion.thru = (if next = .thru then .lowered else .raised) ∧
       t.bed.toolKiss = (if next = .kiss then some s.motion.params.kissPressure else none) ∧
       t.bed.toolThru = (if next = .thru then some s.motion.params.thruPressure else none) ∧
       t.cycle = s.cycle ∧ t.marks = s.marks ∧ t.link = s.link) ∧
  (∀ (s : State) (tool next : Tool) (target target' : BedPos) (ref : CutRef) (ref' : Option CutRef) (rest : List Entry)
    (w : Worklist) (it : Item), s.atRest → s.cycleSafe = true → s.cycle.state = .cutting →
    s.motion.queue = .cut tool target (some ref) :: .cut next target' ref' :: rest →
    s.suspendPending = false → s.cycle.stopPending = false → s.motion.homed = true →
    (s.bed.lines.get 1).taken = false → target'.onBed = true → s.plan.worklist = some w → w.issue.item = none →
    w.stopped = false → w.cursorIndex = some ref.item → w.items[ref.item]? = some it → it.passDone = ref.pass →
    it.segmentAfter it.passDone it.segDone = ref.segment → it.segments ≤ it.segDone + 1 →
    (it.passDone + 1 < it.passes ∨ ∃ j a, j ≠ ref.item ∧ w.items[j]? = some a ∧
      (a.state = .pending ∨ a.state = .active)) →
    ∃ t v, exec .moveCompletion s = .next t ∧ t.plan.worklist = some v ∧
      v.items = w.items.set ref.item { it with
        passDone := it.passDone + 1, segDone := 0
        state := if it.passDone + 1 < it.passes then .active else .done } ∧
      v.completed = w.completed ∧ t.motion.head = some target ∧ t.motion.queue = .cut next target' ref' :: rest ∧
      t.cycle = s.cycle) ∧
  (∀ (s : State) (tool : Tool) (target : BedPos) (ref : CutRef) (w : Worklist) (it : Item), s.atRest →
    s.cycleSafe = true → s.cycle.state = .cutting → s.motion.queue = [.cut tool target (some ref)] →
    s.plan.worklist = some w → w.completed = false → w.issue.item = none → w.stopped = false →
    w.cursorIndex = some ref.item → w.items[ref.item]? = some it → it.passDone = ref.pass →
    it.segmentAfter it.passDone it.segDone = ref.segment → it.segments ≤ it.segDone + 1 → it.passes ≤ it.passDone + 1 →
    (∀ j a, j ≠ ref.item → w.items[j]? = some a → ¬ (a.state = .pending ∨ a.state = .active)) →
    let toCut (i : Slot) (k : Nat) : Prop := (s.panel i).lock = .committed ∧
      ((s.panel i).state = .placed ∨ (s.panel i).state = .cutting) ∧ (s.panel i).placement ≠ none ∧
      k ≤ (s.panel i).lastWindow s.nest.params
    let k := s.cycle.pointer
    let advance := s.nest.params.windowLength / s.nest.params.markPitch * s.nest.params.markPitch
    let runOver (t : State) : Prop := t.cycle.state = .idle ∧ t.cycle.runActive = false ∧ t.cycle.stopPending = false ∧
      t.motion.queue = [] ∧ t.bed.zones = Table.fill 4 false ∧ t.cycle.pointer = k
    ∃ t v, exec .moveCompletion s = .next t ∧ t.plan.worklist = some v ∧ v.completed = true ∧
      v.items = w.items.set ref.item { it with passDone := it.passDone + 1, segDone := 0, state := .done } ∧
      t.motion.head = some target ∧ t.cycle.pointer = k ∧
      (s.cycle.stopPending = false → s.suspendPending = false → (s.bed.lines.get 1).taken = false →
        (s.bed.lines.get 3).taken = false → (∃ i, i ≠ it.slot ∧ toCut i (k + 1) ∧ (s.panel i).state = .placed) →
        t.cycle.state = .feeding ∧ t.cycle.feedJob = some ⟨.run, 1⟩ ∧ t.motion.queue = [.feed advance] ∧
        t.motion.executing = true ∧ t.bed.zones = Table.fill 4 false ∧ t.cycle.runActive = s.cycle.runActive) ∧
      (s.cycle.stopPending = false → s.suspendPending = true →
        (∃ i, i ≠ it.slot ∧ toCut i (k + 1) ∧ (s.panel i).state = .placed) →
        t.cycle.state = .suspended ∧ t.cycle.taken = some ⟨s.cycle.reasons, s.cycle.halts, .feed⟩ ∧
        t.motion.queue = [] ∧ t.bed.zones = s.bed.zones) ∧
      ((∀ i, ¬ toCut i (k + 1)) → runOver t ∧ (s.cycle.stopPending = false → t.marks = s.marks)) ∧
      (s.cycle.stopPending = true → s.suspendPending = false → runOver t ∧ t.marks = s.marks.invalidate s.currentRows)) ∧
  (∀ (s : State) (w : Worklist), s.plan.worklist = some w →
    let k := s.cycle.pointer
    let t := s.completeWindow.1
    let met (p : Panel) : Prop := ∃ pl, p.placement = some pl ∧ pl.y < s.nest.params.windowStart (k + 1) ∧
      s.nest.params.windowStart k < pl.y + p.eh pl.rotation
    (w.completed = true → t = { s with link := t.link } ∧ ∃ last, t.link.formed =
      s.link.formed ++ windowDoneNotice k :: last) ∧
    (w.completed = false →
      t = { s with
        link := t.link
        plan := { s.plan with worklist := some { w with completed := true } }
        store := { s.store with panels := t.store.panels } } ∧
      (∀ i n, (s.panel i).state = .cutting → met (s.panel i) → (s.panel i).windowsLeft = some n →
        t.panel i = (if n ≤ 1 then { s.panel i with state := .cut, windowsLeft := none }
          else { s.panel i with windowsLeft := some (n - 1) })) ∧
      (∀ i, ((s.panel i).state ≠ .cutting ∨ ¬ met (s.panel i)) → t.panel i = s.panel i) ∧
      ∃ (cut : List Slot) (last : List OutRecord), cut.Pairwise (fun a b => a < b) ∧
        (∀ i, i ∈ cut ↔ ((s.panel i).state ≠ .cut ∧ (t.panel i).state = .cut)) ∧
        t.link.formed = s.link.formed ++ cut.map (fun i => panelDoneNotice i k) ++ windowDoneNotice k :: last) ∧
    (s.completeWindow.2 = true ↔ ∃ i, (t.panel i).lock = .committed ∧
      ((t.panel i).state = .placed ∨ (t.panel i).state = .cutting) ∧ (t.panel i).placement ≠ none ∧
      k + 1 ≤ (t.panel i).lastWindow s.nest.params) ∧
    (s.completeWindow.2 = true → t.link.formed.getLast? = some (windowDoneNotice k)) ∧
    (s.completeWindow.2 = false → t.link.formed.getLast? = some (runDoneNotice k))) ∧
  (∀ (lp : LayoutParams) (sp : Span) (mu : MarkUnit) (pt : Vertex) (i : Nat) (a b : MarkRow) (la ra lb rb : Measured),
    0 < lp.markPitch → 0 < lp.spacing →
    let v (r : Nat) : Nat := lp.lead + r * lp.markPitch
    (bandOf lp sp pt.v = some i ↔ (sp.first ≤ i ∧ i < sp.last ∧ v i ≤ pt.v ∧
      (pt.v < v (i + 1) ∨ (pt.v = v (i + 1) ∧ i + 1 = sp.last)))) ∧
    (mu.rows[i]? = some a → mu.rows[i + 1]? = some b → a.left.measured = some la → a.right.measured = some ra →
      b.left.measured = some lb → b.right.measured = some rb →
      let x : Rat := ((pt.u : Rat) - lp.uLeft) / ((lp.uRight : Rat) - lp.uLeft)
      let y : Rat := ((pt.v : Rat) - v i) / lp.markPitch
      let blended (f : BedPos → Int) : Rat :=
        (1 - x) * (1 - y) * f la.pos + x * (1 - y) * f ra.pos + (1 - x) * y * f lb.pos + x * y * f rb.pos
      ∃ pos, correctIn lp mu i pt = some pos ∧ roundsTo (blended (fun q => q.x)) pos.x ∧
        roundsTo (blended (fun q => q.y)) pos.y)) ∧
  (∀ (s : State) (pt : Vertex),
    (s.marks.span = none → s.correct pt = none) ∧
    (∀ sp, s.marks.span = some sp →
      (bandOf s.nest.params sp pt.v = none → s.correct pt = none) ∧
      (∀ i, bandOf s.nest.params sp pt.v = some i →
        s.correct pt = if s.marks.usable i then correctIn s.nest.params s.marks i pt else none)) ∧
    (∀ i, s.marks.usable i = true ↔ (s.marks.bands[i]? = some .ok ∧ ∃ a b, s.marks.rows[i]? = some a ∧
      s.marks.rows[i + 1]? = some b ∧ ∀ m ∈ [a.left, a.right, b.left, b.right], m.state = .read ∨ m.state = .set))) ∧
  (∀ (it : Item) (pass n : Nat),
    ((it.entry = none ∨ pass % 2 = 0) → it.pointAfter pass n = n ∧ it.segmentAfter pass n = n) ∧
    (it.entry ≠ none → pass % 2 = 1 →
      it.pointAfter pass n = it.segments - n ∧ it.segmentAfter pass n = it.segments - 1 - n)) ∧
  (∀ (s : State) (p target' : BedPos) (next : Tool) (ref' : CutRef) (more : List Entry) (w : Worklist), s.atRest →
    s.cycleSafe = true → s.cycle.state = .cutting →
    s.motion.queue = .travel .planner p :: .cut next target' (some ref') :: more →
    s.suspendPending = false → s.cycle.stopPending = false → s.motion.homed = true →
    (s.bed.lines.get 1).taken = false → target'.onBed = true → s.plan.worklist = some w → w.stopped = false →
    let rest : List Entry := .cut next target' (some ref') :: more
    let goesOn (issued : List Entry) (v : Worklist) : Prop := ∃ t, exec .moveCompletion s = .next t ∧
      t.motion.queue = rest ++ issued ∧ t.motion.executing = true ∧ t.motion.head = some p ∧
      t.plan = { s.plan with worklist := some v } ∧ t.store = s.store ∧ t.cycle = s.cycle ∧ t.marks = s.marks ∧
      t.link = s.link
    (w.issue.item = none → goesOn [] w) ∧
    (∀ i it pass n reported, w.issue = ⟨some i, pass, n, false, reported⟩ → w.items[i]? = some it →
      (it.state = .pending ∨ it.state = .active) →
      (s.correct (s.itemPoint w it (it.pointAfter pass (n + 1))) = none → goesOn [] w) ∧
      (∀ target, s.correct (s.itemPoint w it (it.pointAfter pass (n + 1))) = some target → more.length = 30 →
        ∃ v, goesOn [.cut it.tool target (some ⟨i, pass, it.segmentAfter pass n⟩)] { w with issue := v } ∧
          (n + 1 < it.segments → v = ⟨some i, pass, n + 1, false, false⟩) ∧
          (it.segments ≤ n + 1 → pass + 1 < it.passes → v = ⟨some i, pass + 1, 0, false, false⟩) ∧
          (it.segments ≤ n + 1 → it.passes ≤ pass + 1 →
            (∀ j b, i < j → w.items[j]? = some b → (b.state = .pending ∨ b.state = .active) →
              (∀ k a, i < k → k < j → w.items[k]? = some a → ¬ (a.state = .pending ∨ a.state = .active)) →
              v = ⟨some j, b.passDone, b.segDone, true, false⟩) ∧
            ((∀ k a, i < k → w.items[k]? = some a → ¬ (a.state = .pending ∨ a.state = .active)) →
              v.item = none)))) ∧
    (∀ i it target, w.cursorIndex = some i → w.items[i]? = some it → more.length = 30 →
      w.issue = ⟨some i, it.passDone, it.segDone, true, false⟩ →
      s.correct (s.itemPoint w it (it.pointAfter it.passDone it.segDone)) = some target →
      let placed : IssuePointer := ⟨some i, it.passDone, it.segDone, false, false⟩
      (w.startPassed = some i →
        goesOn [.travel .planner target] { w with issue := placed, startPassed := none }) ∧
      (w.startPassed ≠ some i → ((it.passDone ≠ 0 ∨ it.segDone ≠ 0) ∨
          (s.cycle.step = false ∧ ∀ b, (s.cycle.breakpoints.get b).kind = .off)) →
        goesOn [.travel .planner target] { w with issue := placed }))) ∧
  (∀ (s : State) (p : BedPos) (w : Worklist) (i : Nat) (it : Item) (pass n : Nat) (reported : Bool), s.atRest →
    s.cycleSafe = true → s.cycle.state = .cutting → s.motion.queue = [.travel .planner p] →
    s.cycle.stopPending = false → s.motion.homed = true → (s.bed.lines.get 1).taken = false →
    s.plan.worklist = some w → w.stopped = false → w.issue = ⟨some i, pass, n, false, reported⟩ →
    w.items[i]? = some it → (it.state = .pending ∨ it.state = .active) →
    s.correct (s.itemPoint w it (it.pointAfter pass (n + 1))) = none →
    let k := s.cycle.pointer
    (∀ sp rect, s.windowSpan = some sp →
      clipToBed (searchSquare s.marks.searchSize 0 (nominalBed s.nest.params k sp.first .left)) = some rect →
      ∃ t m, exec .moveCompletion s = .next t ∧ t.motion.queue = [.search rect] ∧ t.motion.executing = true ∧
        t.cycle = { s.cycle with state := .measuring, phase := .readying } ∧ t.plan = s.plan ∧ t.link = s.link ∧
        (s.marks.openWindow k (some sp) none).mark sp.first .left = some m ∧
        t.marks = { (s.marks.openWindow k (some sp) none).setMark sp.first .left { m with attempts := 1 } with
          flight := some ⟨sp.first, .left, 1, rect⟩ }) ∧
    (s.windowSpan = none → ∃ t, exec .moveCompletion s = .next t ∧ t.cycle = { s.cycle with phase := .readying } ∧
      t.motion.queue = [] ∧ t.motion.executing = false ∧ t.motion.head = some p ∧ t.plan = s.plan ∧
      t.link = s.link))

/-- ENCODER_STEP, AXIS_POSITION_REPORT and HOME_FULL_TRAVEL: the count follows the encoder and the guard timer starts
again while a FEED executes; the head follows the axes while another entry executes and the homed flag is set; an axis
driven its full travel without its line gives HOME_FAIL; otherwise they are disregarded (R125, R126, R128, R130, R145).
The model's readings: that the head follows during any entry but a FEED while the homed flag is set (R123, log 16), and
that an AXIS_POSITION_REPORT with an empty queue, and a HOME_FULL_TRAVEL while no HOME entry executes, leave the state
(log 20). -/
def Obligations.DriveReportsFollowed : Prop :=
  ∀ (s : State), s.atRest → s.cycleSafe = true →
    (∀ forward : Bool,
      (∀ d rest, s.motion.queue = .feed d :: rest →
        exec (.encoderStep forward) s = .next { s with motion := { s.motion with
          encoder := s.motion.encoder + (if forward then 1 else -1)
          guardTimer := some s.motion.params.feedGuardTime } }) ∧
      ((∀ d rest, s.motion.queue ≠ .feed d :: rest) → exec (.encoderStep forward) s = .next s)) ∧
    (∀ x y : Int,
      (∀ e rest, s.motion.queue = e :: rest → e.kind ≠ .feed → s.motion.homed = true →
        exec (.axisPositionReport x y) s = .next { s with motion := { s.motion with head := some ⟨x, y⟩ } }) ∧
      (∀ e rest, s.motion.queue = e :: rest → (e.kind = .feed ∨ s.motion.homed = false) →
        exec (.axisPositionReport x y) s = .next s) ∧
      (s.motion.queue = [] → exec (.axisPositionReport x y) s = .next s)) ∧
    (∀ (axis : Axis) (h : Homing) (rest : List Entry), s.motion.queue = .home :: rest → s.motion.homing = some h →
      (h.home axis = true → exec (.homeFullTravel axis) s = .next s) ∧
      (h.home axis = false → ∃ t r, exec (.homeFullTravel axis) s = .next t ∧ t.cycle.state = .halted ∧
        t.cycle.fault = some r ∧ r.kind = .homeFail ∧ r.detail = .axis axis ∧ r.stateAtEntry = s.cycle.state ∧
        t.motion.queue = [] ∧ t.motion.executing = false ∧ t.motion.homed = false ∧ t.motion.head = none)) ∧
    (∀ axis : Axis, (∀ rest, s.motion.queue ≠ .home :: rest) → exec (.homeFullTravel axis) s = .next s)

/-- FEED of 1 to 8 windows, with a distance of at least 1 and MEDIA_END off: FEEDING, the FEED entry executing over n
windows' advance and what is owed, tools raised, zones released, the drive on and the guard timer started (R115, R127).
How a FEED ends: the guard timer's expiry and a count beyond SLIP_TOL are MEDIA_SLIP faults that leave the remainder and
the windows owed; within SLIP_TOL a FEED request's feed advances the pointer up to the window count and returns to IDLE
(R92, R115, R128, R129, R130, R145). That an expiry with the guard timer stopped leaves the state is the model's (log
20). FEED refused FAULT_LATCHED, REFUSED_STATE, GUARD_OPEN or BUSY (R115); FEED taken with MEDIA_END on is the fault
MEDIA_END at the take with the distance (R127). A run's feed and an owed feed end well: the pointer goes on, the owed
windows and the remainder are cleared after an owed feed, and the window there is entered, with a suspension pending
SUSPENDED with resume point SETTLE, with more than 256 items HELD(PLAN_FULL); with a stop pending the run is over (R95,
R99, R100, R104, R109, R111). That a feed which ends in IDLE, its run stopped, advances the pointer and enters no window
is the model's choice (log 11). -/
def Obligations.FeedRunsAndEnds : Prop :=
  (∀ (s : State) (tag n : Byte), s.ready → s.cycleSafe = true → s.cycle.state = .idle →
     ((n = 0 ∨ 8 < n.toNat) → exec (.feed tag n) s = .next (s.queueReply 0x28 tag .badArg [] none)) ∧
     (1 ≤ n.toNat → n.toNat ≤ 8 → (s.bed.lines.get 1).taken = false → s.motion.executing = false →
       (s.bed.lines.get 3).taken = false →
       let advance := s.nest.params.windowLength / s.nest.params.markPitch * s.nest.params.markPitch
       let distance : Int := n.toNat * advance + (if 0 < s.cycle.owed then s.cycle.remainder else 0)
       1 ≤ distance →
       exec (.feed tag n) s = .next ({ s with
         cycle := { s.cycle with state := .feeding, feedJob := some ⟨.request, n.toNat + s.cycle.owed⟩ }
         motion := { s.motion with
           queue := [.feed distance.toNat], executing := true, speed := none, kiss := .raised, thru := .raised
           commanded := some distance.toNat, encoder := 0, guardTimer := some s.motion.params.feedGuardTime }
         bed := { s.bed with
           toolKiss := none, toolThru := none, feedDrive := true, zones := Table.fill 4 false } }.queueReply 0x28 tag .ok
             [] none))) ∧
  (∀ (s : State) (d : Nat) (job : FeedJob), s.atRest → s.cycleSafe = true → s.cycle.state = .feeding →
     s.motion.queue = [.feed d] → s.cycle.feedJob = some job →
     let slip (tolerance : Bool) (t : State) : Prop := ∃ r, t.cycle.fault = some r ∧ r.kind = .mediaSlip ∧
       r.detail = .slip tolerance d s.motion.encoder ∧ t.cycle.state = .halted ∧ t.motion.queue = [] ∧
       t.motion.executing = false ∧ t.bed.feedDrive = false ∧ t.motion.guardTimer = none ∧
       t.cycle.pointer = s.cycle.pointer ∧ t.cycle.owed = min job.windows (s.windowCount - s.cycle.pointer) ∧
       t.cycle.remainder = (if t.cycle.owed = 0 then 0 else d - s.motion.encoder) ∧
       t.cycle.runActive = s.cycle.runActive
     (s.motion.guardTimer ≠ none → ∃ t, exec .feedGuardExpiry s = .next t ∧ slip false t) ∧
     (s.motion.guardTimer = none → exec .feedGuardExpiry s = .next s) ∧
     (s.motion.params.slipTol < (s.motion.encoder - d).natAbs → ∃ t, exec .feedDriveDone s = .next t ∧ slip true t) ∧
     ((s.motion.encoder - d).natAbs ≤ s.motion.params.slipTol → job.kind = .request →
       let pointer := if s.windowCount ≤ s.cycle.pointer then s.cycle.pointer
         else min (s.cycle.pointer + job.windows) s.windowCount
       exec .feedDriveDone s = .next { s with
         cycle := { s.cycle with state := .idle, pointer := pointer, remainder := 0, owed := 0, feedJob := none }
         plan := { s.plan with worklist := if pointer = s.cycle.pointer then s.plan.worklist else none }
         marks := { s.marks with span := if pointer = s.cycle.pointer then s.marks.span else none }
         motion := { s.motion with
           queue := [], executing := false, speed := none, commanded := none, homing := none, guardTimer := none
           kiss := .raised, thru := .raised }
         bed := { s.bed with toolKiss := none, toolThru := none, feedDrive := false } })) ∧
  (∀ (s : State) (tag n : Byte), s.ready → s.cycleSafe = true →
     let answer (status : Status) : Prop := exec (.feed tag n) s = .next (s.queueReply 0x28 tag status [] none)
     (s.cycle.state = .halted → answer .faultLatched) ∧
     (s.cycle.state ≠ .halted → s.cycle.state ≠ .idle → answer .refusedState) ∧
     (s.cycle.state = .idle → 1 ≤ n.toNat → n.toNat ≤ 8 →
       ((s.bed.lines.get 1).taken = true → answer .guardOpen) ∧
       ((s.bed.lines.get 1).taken = false → s.motion.executing = true → answer .busy) ∧
       ((s.bed.lines.get 1).taken = false → s.motion.executing = false → (s.bed.lines.get 3).taken = true →
         let advance := s.nest.params.windowLength / s.nest.params.markPitch * s.nest.params.markPitch
         let distance : Int := n.toNat * advance + (if 0 < s.cycle.owed then s.cycle.remainder else 0)
         1 ≤ distance → ∃ t r, exec (.feed tag n) s = .next t ∧ t.cycle.state = .halted ∧ t.cycle.fault = some r ∧
           r.kind = .mediaEnd ∧ r.detail = .mediaEnd false distance 0 ∧ r.stateAtEntry = .feeding ∧
           t.motion.queue = [] ∧ t.motion.executing = false ∧ t.motion.encoder = 0 ∧ t.bed.feedDrive = false ∧
           t.cycle.pointer = s.cycle.pointer ∧
           t.cycle.owed = min (n.toNat + s.cycle.owed) (s.windowCount - s.cycle.pointer) ∧
           t.cycle.remainder = (if t.cycle.owed = 0 then 0 else distance)))) ∧
  (∀ (s : State) (d : Nat) (job : FeedJob), s.atRest → s.cycleSafe = true → s.cycle.state = .feeding →
     s.motion.queue = [.feed d] → s.cycle.feedJob = some job → job.kind ≠ .request →
     (s.motion.encoder - d).natAbs ≤ s.motion.params.slipTol → s.cycle.pointer < s.windowCount → 1 ≤ job.windows →
     let k := min (s.cycle.pointer + job.windows) s.windowCount
     let items := s.builtItems k
     let moved : State := { s with
       cycle := { s.cycle with pointer := k }, marks := { s.marks with span := none } }
     let owing (t : State) : Prop := t.cycle.feedJob = none ∧
       (job.kind = .run → t.cycle.owed = s.cycle.owed ∧ t.cycle.remainder = s.cycle.remainder) ∧
       (job.kind = .owed → t.cycle.owed = 0 ∧ t.cycle.remainder = 0)
     let zonesOn := s.bed.zones.map fun z on => on || windowZone s.nest.params z
     let opened := moved.marks.openWindow k moved.windowSpan (if job.kind = .run then some s.motion.encoder else none)
     ∃ t, exec .feedDriveDone s = .next t ∧ t.cycle.pointer = k ∧ t.bed.feedDrive = false ∧
       t.motion.guardTimer = none ∧
       (s.cycle.stopPending = true → t.cycle.state = .idle ∧ t.cycle.runActive = false ∧ t.cycle.stopPending = false ∧
         t.plan.worklist = none ∧ t.motion.queue = [] ∧ t.bed.zones = Table.fill 4 false ∧
         t.marks = moved.marks.invalidate moved.currentRows ∧ t.link = s.link ∧ owing t) ∧
       (s.cycle.stopPending = false → items ≠ [] → items.length ≤ 256 → 0 < s.cycle.vacSettle →
         (∃ w, t.plan.worklist = some w ∧ w.window = k ∧ w.items = items ∧ w.completed = false) ∧
         t.motion.queue = [] ∧ t.bed.zones = zonesOn ∧ t.marks = opened ∧ owing t ∧
         (s.suspendPending = true → t.cycle.state = .suspended ∧
           t.cycle.taken = some ⟨s.cycle.reasons, s.cycle.halts, .settle⟩ ∧ t.cycle.reasons = ⟨false, false, false⟩) ∧
         (s.suspendPending = false → t.cycle.state = .measuring ∧ t.cycle.phase = .settle ∧
           t.cycle.settleTimer = some s.cycle.vacSettle ∧
           t.link = s.link.queueNotice (windowStartNotice k items.length))) ∧
       (s.cycle.stopPending = false → 256 < items.length → t.cycle.state = .held ∧ t.cycle.hold = some .planFull ∧
         t.cycle.reasons = ⟨false, false, false⟩ ∧ t.plan.worklist = none ∧ t.marks = opened ∧ owing t ∧
         t.link = s.link.queueNotice (heldNotice .planFull k (be16 items.length)))) ∧
  (∀ (s : State) (d : Nat) (job : FeedJob), s.atRest → s.cycle.state = .idle → s.motion.queue = [.feed d] →
     s.cycle.feedJob = some job → (s.motion.encoder - d).natAbs ≤ s.motion.params.slipTol →
     s.cycle.pointer < s.windowCount → 1 ≤ job.windows →
     ∃ t, exec .feedDriveDone s = .next t ∧ t.cycle.state = .idle ∧ t.cycle.feedJob = none ∧
       t.cycle.pointer = min (s.cycle.pointer + job.windows) s.windowCount ∧ t.plan.worklist = none ∧
       t.motion.queue = [] ∧ t.bed.feedDrive = false ∧ t.link = s.link)

/-! ### Input lines -/

/-- LINE_WIRE_CHANGE and FILTER_EXPIRY: a wire that leaves the taken level starts its filter's timer, one that returns
stops it; at the expiry the wire's level is taken, an enabled change latched and notified, the notice with the eight
levels after it. Shown whole for KEY, which acts on no unit (R132, R134, R139). With FILTER NONE the change is taken at
once. The model's readings: that a wire change to the level the wire has, and the expiry of a stopped filter timer,
leave the state (log 20). -/
def Obligations.FilteredLineChanges : Prop :=
  (∀ (s : State) (i : Fin 8) (level : Bool), s.atRest →
     let l := s.bed.lines.get i
     let withLine (j : Fin 8) (m : Line) : State := { s with bed := { s.bed with lines := s.bed.lines.set j m } }
     (l.wire = level → exec (.lineWireChange i level) s = .next s) ∧
     (l.wire ≠ level → level = l.taken →
       exec (.lineWireChange i level) s = .next (withLine i { l with wire := level, timer := none })) ∧
     (l.wire ≠ level → level ≠ l.taken → i ≠ 0 →
       (l.filter = .f2 → exec (.lineWireChange i level) s = .next (withLine i { l with wire := level, timer := some 2 })) ∧
       (l.filter = .f8 → exec (.lineWireChange i level) s = .next (withLine i { l with wire := level, timer := some 8 })) ∧
       (l.filter = .f32 →
         exec (.lineWireChange i level) s = .next (withLine i { l with wire := level, timer := some 32 }))) ∧
     (l.timer = none → exec (.filterExpiry i) s = .next s) ∧
     (let k := s.bed.lines.get 4
      k.timer ≠ none → k.wire ≠ k.taken →
       let enabled := if k.wire then k.riseEn else k.fallEn
       let t := withLine 4 { k with
         taken := k.wire, timer := none, riseChange := k.riseChange || (k.wire && k.riseEn)
         fallChange := k.fallChange || (!k.wire && k.fallEn) }
       exec (.filterExpiry 4) s = .next (if enabled = true then
           State.queueNotice ⟨0x69, 0, [4, if k.wire then 0 else 1, if k.wire then 1 else 0, u8 t.levels], none⟩ t
         else t))) ∧
  (∀ (s : State) (level : Bool), s.atRest →
     let k := s.bed.lines.get 4
     let enabled := if level then k.riseEn else k.fallEn
     let t : State := { s with bed := { s.bed with lines := s.bed.lines.set 4 { k with
       wire := level, taken := level, timer := none, riseChange := k.riseChange || (level && k.riseEn)
       fallChange := k.fallChange || (!level && k.fallEn) } } }
     k.filter = .none → k.wire ≠ level → level ≠ k.taken →
     exec (.lineWireChange 4 level) s = .next (if enabled = true then
         State.queueNotice ⟨0x69, 0, [4, if level then 0 else 1, if level then 1 else 0, u8 t.levels], none⟩ t
       else t))

/-- A rise of ESTOP: in every cycle state with no fault latched, HALTED with the ESTOP record, motion stopped, the safe
values set, the homed flag cleared; while a fault is latched, a follow-on counted up to 255; a fall acts on no unit
(R130, R136, R143, R145, R148). What the taken changes of GUARD, VAC_OK and MEDIA_END do, by FILTER_EXPIRY: a rise of
GUARD while an entry executes is the GUARD fault of that entry, and none otherwise; a fall of VAC_OK in MEASURING,
CUTTING, SUSPENDED or TESTCUT is VACUUM_LOST (FALL), and acts on no unit in any other state; a rise of MEDIA_END during
a FEED is MEDIA_END (DURING) (R137 to R139). A rise of PEDAL resumes as RESUME does, without a reply, in SUSPENDED and
in HELD(RECOVER) with the guard shut and the head homed, and does nothing otherwise (R110, R140). An enabled rise that
raises a fault queues its INPUT notice before the FAULT notice (R134, R147). The take of the entry behind a completed
move: GUARD on is the GUARD fault of that entry; a target or a corner of a SEARCH outside the bed travel, or the homed
flag clear, is MOTION_LIMIT (R120, R137, R144; the corner named is log 28); MEDIA_END on is that fault for a FEED
(R127); else the entry executes at its speed with the tools set for its kind (R121, R122, R141). -/
def Obligations.LinesStopAndFault : Prop :=
  (∀ (s : State), s.atRest → s.cycleSafe = true → (s.bed.lines.get 0).wire = (s.bed.lines.get 0).taken →
     ((s.bed.lines.get 0).taken = false → (s.bed.lines.get 0).riseEn = false →
       (s.cycle.fault = none → ∃ t r, exec (.lineWireChange 0 true) s = .next t ∧ t.cycle.state = .halted ∧
         t.cycle.fault = some r ∧ r.kind = .estop ∧ r.detail = .none ∧ r.stateAtEntry = s.cycle.state ∧
         r.window = s.cycle.pointer ∧ r.followOn = 0 ∧ t.motion.queue = [] ∧ t.motion.executing = false ∧
         t.motion.kiss = .raised ∧ t.motion.thru = .raised ∧ t.motion.homed = false ∧ t.motion.head = none ∧
         t.bed.toolKiss = none ∧ t.bed.toolThru = none ∧ t.bed.feedDrive = false ∧ t.bed.beacon = true ∧
         (∀ z, t.bed.zones.get z = (s.bed.zones.get z && decide (s.bed.vacSafe.get z = .hold))) ∧
         t.cycle.runActive = s.cycle.runActive ∧ t.cycle.pointer = s.cycle.pointer ∧ t.cycle.stopPending = false ∧
         t.cycle.reasons = ⟨false, false, false⟩ ∧ t.cycle.hold = none ∧ t.cycle.taken = none ∧
         t.cycle.before = none ∧ t.store = s.store ∧ t.nest = s.nest ∧
         t.link = s.link.queueNotice (faultNotice r)) ∧
       (∀ r, s.cycle.fault = some r → r.followOn ≤ 255 → ∃ t, exec (.lineWireChange 0 true) s = .next t ∧
         t.cycle = { s.cycle with fault := some { r with
           followOn := if r.followOn < 255 then r.followOn + 1 else 255, lastFollowOn := some .estop } } ∧
         t.motion.homed = false ∧ t.motion.head = none ∧ t.link = s.link)) ∧
     ((s.bed.lines.get 0).taken = true → (s.bed.lines.get 0).fallEn = false →
       exec (.lineWireChange 0 false) s = .next { s with bed := { s.bed with
         lines := s.bed.lines.set 0 { s.bed.lines.get 0 with wire := false, taken := false, timer := none } } })) ∧
  (∀ (s : State) (i : Fin 8), s.atRest → s.cycleSafe = true → s.cycle.fault = none →
     let l := s.bed.lines.get i
     l.timer ≠ none → l.wire ≠ l.taken → l.riseEn = false → l.fallEn = false →
     let quiet : State := { s with bed := { s.bed with
       lines := s.bed.lines.set i { l with taken := l.wire, timer := none } } }
     let faults (kind : FaultKind) (detail : FaultDetail) : Prop := ∃ t r, exec (.filterExpiry i) s = .next t ∧
       t.cycle.state = .halted ∧ t.cycle.fault = some r ∧ r.kind = kind ∧ r.detail = detail ∧
       r.stateAtEntry = s.cycle.state ∧ t.motion.queue = [] ∧ t.motion.executing = false ∧
       t.motion.homed = s.motion.homed
     (i = 1 → l.wire = true →
       (∀ e rest, s.motion.queue = e :: rest → faults .guard (.guard e.kind)) ∧
       (s.motion.queue = [] → exec (.filterExpiry i) s = .next quiet)) ∧
     (i = 2 → l.wire = false →
       ((s.cycle.state = .measuring ∨ s.cycle.state = .cutting ∨ s.cycle.state = .suspended ∨
         s.cycle.state = .testcut) → faults .vacuumLost (.vacuum false)) ∧
       ((s.cycle.state = .idle ∨ s.cycle.state = .homing ∨ s.cycle.state = .feeding ∨ s.cycle.state = .held) →
         exec (.filterExpiry i) s = .next quiet)) ∧
     (i = 3 → l.wire = true →
       (∀ d rest, s.motion.queue = .feed d :: rest → faults .mediaEnd (.mediaEnd true d s.motion.encoder)) ∧
       (s.motion.queue = [] → exec (.filterExpiry i) s = .next quiet))) ∧
  (∀ (s : State) (tag : Byte), s.ready → s.cycleSafe = true →
     let l := s.bed.lines.get 5
     let quiet : State := { s with bed := { s.bed with
       lines := s.bed.lines.set 5 { l with taken := true, timer := none } } }
     let waiting := s.cycle.state = .suspended ∨ (s.cycle.state = .held ∧ s.cycle.hold = some .recover)
     l.timer ≠ none → l.wire = true → l.taken = false → l.riseEn = false →
     ((¬ waiting ∨ (s.bed.lines.get 1).taken = true ∨ s.motion.homed = false) →
       exec (.filterExpiry 5) s = .next quiet) ∧
     (waiting → (s.bed.lines.get 1).taken = false → s.motion.homed = true → ∃ t u,
       exec (.filterExpiry 5) s = .next t ∧ exec (.resume tag) quiet = .next u ∧ t.store = u.store ∧
       t.nest = u.nest ∧ t.marks = u.marks ∧ t.plan = u.plan ∧ t.cycle = u.cycle ∧ t.motion = u.motion ∧
       t.bed = u.bed ∧ s.link.outbound <+: t.link.outbound ∧ t.link.inbound = s.link.inbound)) ∧
  (∀ (s : State) (i : Fin 8), s.atRest → s.cycleSafe = true → s.cycle.fault = none →
     let l := s.bed.lines.get i
     let change : Instr := if i = 0 then .lineWireChange 0 true else .filterExpiry i
     l.wire = decide (i ≠ 0) → l.taken = false → l.riseEn = true → (i ≠ 0 → l.timer ≠ none) →
     (i = 0 ∨ (i = 1 ∧ s.motion.queue ≠ []) ∨ (i = 3 ∧ s.feedExecuting = true)) → ∃ t r,
       exec change s = .next t ∧ t.cycle.state = .halted ∧ t.cycle.fault = some r ∧
       r.kind = (if i = 0 then .estop else if i = 1 then .guard else .mediaEnd) ∧
       t.bed.lines.get i = { l with wire := true, taken := true, timer := none, riseChange := true } ∧
       t.link = (s.link.queueNotice ⟨0x69, 0, [u8 i.val, 0, 1, u8 t.levels], none⟩).queueNotice (faultNotice r)) ∧
  (∀ (s : State) (p : BedPos) (e : Entry) (rest : List Entry), s.atRest → s.cycleSafe = true →
     s.motion.queue = .travel .cycle p :: e :: rest →
     let homed := s.motion.homed
     let inside (q : BedPos) : Prop := 0 ≤ q.x ∧ q.x ≤ 165000 ∧ 0 ≤ q.y ∧ q.y ≤ 260000
     let faults (kind : FaultKind) (detail : FaultDetail) : Prop := ∃ t r, exec .moveCompletion s = .next t ∧
       t.cycle.state = .halted ∧ t.cycle.fault = some r ∧ r.kind = kind ∧ r.detail = detail ∧
       r.stateAtEntry = s.cycle.state ∧ r.head = (if homed = true then some p else none) ∧ t.motion.queue = [] ∧
       t.motion.executing = false ∧ t.motion.homed = homed ∧ t.motion.kiss = .raised ∧ t.motion.thru = .raised ∧
       t.bed.toolKiss = none ∧ t.bed.toolThru = none ∧ t.bed.feedDrive = false ∧
       t.link = s.link.queueNotice (faultNotice r)
     let taken (speed : Nat) (tool : Option Tool) : Prop := ∃ t, exec .moveCompletion s = .next t ∧
       t.motion.queue = e :: rest ∧ t.motion.executing = true ∧ t.motion.head = some p ∧
       t.motion.speed = some speed ∧ t.cycle = s.cycle ∧
       t.motion.kiss = (if tool = some Tool.kiss then .lowered else .raised) ∧
       t.motion.thru = (if tool = some Tool.thru then .lowered else .raised) ∧
       t.bed.toolKiss = (if tool = some Tool.kiss then some s.motion.params.kissPressure else none) ∧
       t.bed.toolThru = (if tool = some Tool.thru then some s.motion.params.thruPressure else none)
     let meets (q : BedPos) (speed : Nat) (tool : Option Tool) : Prop :=
       ((¬ inside q ∨ homed = false) → faults .motionLimit (.limit e.kind q (!homed))) ∧
       (inside q → homed = true → taken speed tool)
     ((s.bed.lines.get 1).taken = true → faults .guard (.guard e.kind)) ∧
     ((s.bed.lines.get 1).taken = false →
       (∀ producer q, e = .travel producer q → meets q s.motion.params.travelSpeed none) ∧
       (∀ q ref, e = .cut .kiss q ref → meets q s.motion.params.kissSpeed (some .kiss)) ∧
       (∀ q ref, e = .cut .thru q ref → meets q s.motion.params.thruSpeed (some .thru)) ∧
       (∀ r, e = .search r →
         let a : BedPos := ⟨r.x0, r.y0⟩
         let b : BedPos := ⟨r.x1, r.y1⟩
         (¬ inside a → faults .motionLimit (.limit .search a (!homed))) ∧
         (inside a → ¬ inside b → faults .motionLimit (.limit .search b (!homed))) ∧
         (inside a → inside b → homed = false → faults .motionLimit (.limit .search a true)) ∧
         (inside a → inside b → homed = true → taken s.motion.params.travelSpeed none)) ∧
       (∀ d, e = .feed d → (s.bed.lines.get 3).taken = true → faults .mediaEnd (.mediaEnd false d 0))))

/-! ### Invariants -/

/-- Every step keeps the queues within their places, the overrun count within 255, and no notice unqueued (R117, R156,
R158). -/
def Obligations.CapacitiesKept : Prop :=
  ∀ s t : State, s.withinCapacity = true → s.quietLink = true → step s = .next t →
    t.withinCapacity = true ∧ t.quietLink = true

/-- Every step keeps what binds the cycle controller: the motion unit executes exactly while its queue holds an entry,
HALTED exactly while a fault is latched and then nothing moves, each record in its own state, BEACON on exactly in HELD
and HALTED, the settle timer in MEASURING alone (R92, R93, R120, R130, R142, R146). -/
def Obligations.CycleBindingsKept : Prop :=
  ∀ s t : State, s.cycleSafe = true → step s = .next t → t.cycleSafe = true

/-- Every step keeps: each tool line on exactly while its tool is lowered and at most one is; FEED_DRIVE on exactly
while a FEED executes, with both tools raised; the head position present exactly while homed; no TRAVEL, CUT or SEARCH
executing unless homed with its target, or both corners, on the bed (R117, R120, R121, R127, R141). -/
def Obligations.MotionSafetyKept : Prop :=
  ∀ s t : State, s.cycleSafe = true → s.toolsSafe = true → s.driveSafe = true → s.headSafe = true →
    s.movesHomed = true → step s = .next t →
    t.toolsSafe = true ∧ t.driveSafe = true ∧ t.headSafe = true ∧ t.movesHomed = true

/-- Every step keeps the contour store in its canonical form, every block on the free list or in one chain exactly once,
and no block in an EMPTY slot (R1, R8). -/
def Obligations.BlocksKept : Prop :=
  ∀ s t : State, Contour.wf s.store.contour = true → s.store.blocksSafe → s.store.emptySlotsBare →
    step s = .next t → Contour.wf t.store.contour = true ∧ t.store.blocksSafe ∧ t.store.emptySlotsBare

/-- Every step keeps every parameter in its range, MARK_PITCH within WINDOW_LENGTH, and one band fewer than rows (R24,
R51, R54, R73, R93, R122). -/
def Obligations.ParametersAndBandsKept : Prop :=
  ∀ s t : State, s.paramsSafe = true → s.marks.bandsSafe = true → step s = .next t →
    t.paramsSafe = true ∧ t.marks.bandsSafe = true

/-- What the invariant statements assume holds right after reset. -/
def Obligations.InvariantsHoldAtReset : Prop :=
  State.reset.withinCapacity = true ∧ State.reset.quietLink = true ∧ State.reset.cycleSafe = true ∧
  State.reset.toolsSafe = true ∧ State.reset.driveSafe = true ∧ State.reset.headSafe = true ∧
  State.reset.movesHomed = true ∧ Contour.wf State.reset.store.contour = true ∧ State.reset.store.blocksSafe ∧
  State.reset.store.emptySlotsBare ∧ State.reset.paramsSafe = true ∧ State.reset.marks.bandsSafe = true
end

