-- ==== Sys2Proof/Laws/Bytes.lean ====
section
/-! SUPPORT. Fields written as bytes read back as they were; the lengths of fields and frames. -/

namespace Sys2Proof

/-- A two-byte field read back. -/
theorem halfOf_bytes (h : Half) : halfOf (h.extractLsb' 8 8) (h.extractLsb' 0 8) = h := by
  apply BitVec.eq_of_getLsbD_eq
  intro i hi
  simp only [halfOf, BitVec.getLsbD_append, BitVec.getLsbD_extractLsb']
  by_cases h1 : i < 8
  · simp [h1]
  · have : i - 8 < 8 := by omega
    simp [h1, this, show 8 + (i - 8) = i by omega]

/-- A four-byte field read back. -/
theorem wordOf_bytes (w : Word) :
    wordOf (w.extractLsb' 24 8) (w.extractLsb' 16 8) (w.extractLsb' 8 8) (w.extractLsb' 0 8) = w := by
  apply BitVec.eq_of_getLsbD_eq
  intro i hi
  simp only [wordOf, BitVec.getLsbD_append, BitVec.getLsbD_extractLsb']
  by_cases h1 : i < 8
  · simp [h1]
  · by_cases h2 : i < 16
    · simp [h1, show i - 8 < 8 by omega, show 8 + (i - 8) = i by omega]
    · by_cases h3 : i < 24
      · simp [h1, show ¬ i - 8 < 8 by omega, show i - 8 - 8 < 8 by omega, show 16 + (i - 8 - 8) = i by omega]
      · simp [h1, show ¬ i - 8 < 8 by omega, show ¬ i - 8 - 8 < 8 by omega, show i - 8 - 8 - 8 < 8 by omega,
          show 24 + (i - 8 - 8 - 8) = i by omega]

@[simp] theorem length_halfBytes (h : Half) : (halfBytes h).length = 2 := rfl

@[simp] theorem length_wordBytes (w : Word) : (wordBytes w).length = 4 := rfl

/-- The vertices of a POINTS payload read back. -/
theorem vertexList_vertexBytes (vs : List RawVertex) : vertexList (vertexBytes vs) = some vs := by
  induction vs with
  | nil => rfl
  | cons p vs ih =>
    obtain ⟨u, v⟩ := p
    have e : vertexBytes (⟨u, v⟩ :: vs) = wordBytes u ++ wordBytes v ++ vertexBytes vs := rfl
    rw [e]
    simp only [wordBytes, List.cons_append, List.nil_append, vertexList, ih, Option.map_some, wordOf_bytes]

@[simp] theorem length_vertexBytes (vs : List RawVertex) : (vertexBytes vs).length = 8 * vs.length := by
  induction vs with
  | nil => rfl
  | cons p vs ih =>
    have e : vertexBytes (p :: vs) = wordBytes p.u ++ wordBytes p.v ++ vertexBytes vs := rfl
    rw [e]
    simp only [List.length_append, length_wordBytes, ih, List.length_cons]
    omega

namespace Machine

@[simp] theorem length_be16 (n : Nat) : (be16 n).length = 2 := rfl

@[simp] theorem length_be32 (n : Nat) : (be32 n).length = 4 := rfl

@[simp] theorem length_be32i (z : Int) : (be32i z).length = 4 := rfl

/-- A frame is 4 bytes longer than its body (R154). -/
theorem length_frameOf (body : List Byte) : (frameOf body).length = body.length + 4 := by
  simp [frameOf]

end Machine

end Sys2Proof
end

