-- ==== Sys2Proof/Laws/Numbers.lean ====
section
/-! SUPPORT. What the number and list operations of Machine/Bytes.lean compute: rounding to the nearest whole number,
square roots, and sorting. -/

namespace Sys2Proof.Machine

/-! ### Rounding -/

/-- Half a whole number more than a quotient of natural numbers bounds the rounded quotient on both sides. -/
theorem round_half_bounds (n d : Nat) (hd : 0 < d) :
    2 * d * ((2 * n + d) / (2 * d)) ≤ 2 * n + d ∧ 2 * n + d < 2 * d * ((2 * n + d) / (2 * d)) + 2 * d := by
  have h := Nat.div_add_mod (2 * n + d) (2 * d)
  have h' := Nat.mod_lt (2 * n + d) (show 0 < 2 * d by omega)
  omega

/-- A quotient of natural numbers, rounded, is a half at most from it, and the tie goes up. -/
theorem roundsTo_half (n d : Nat) (hd : 0 < d) : roundsTo ((n : Rat) / d) (((2 * n + d) / (2 * d) : Nat) : Int) := by
  obtain ⟨h1, h2⟩ := round_half_bounds n d hd
  set k := (2 * n + d) / (2 * d) with hk
  have hd' : (0 : Rat) < d := by exact_mod_cast hd
  have e1 : 2 * (d : Rat) * k ≤ 2 * n + d := by exact_mod_cast h1
  have e2 : 2 * (n : Rat) + d < 2 * d * k + 2 * d := by exact_mod_cast h2
  have a1 : (k : Rat) - 1 / 2 ≤ n / d := by
    rw [le_div_iff₀ hd']; linarith
  have a2 : (n : Rat) / d < k + 1 / 2 := by
    rw [div_lt_iff₀ hd']; linarith
  have hn : (0 : Rat) ≤ n / d := by positivity
  simp only [roundsTo, Int.cast_natCast]
  refine ⟨by rw [abs_le]; constructor <;> linarith, fun h => ?_⟩
  rw [abs_of_nonneg hn, abs_of_nonneg (by positivity : (0 : Rat) ≤ k)]
  rcases abs_cases ((n : Rat) / d - k) with ⟨h3, _⟩ | ⟨h3, _⟩ <;> linarith

/-- `roundDiv` rounds to the nearest whole number, halves away from zero (0-5.2). -/
theorem roundsTo_roundDiv (n : Int) (d : Nat) (hd : 0 < d) : roundsTo ((n : Rat) / d) (roundDiv n d) := by
  have h := roundsTo_half n.natAbs d hd
  unfold roundDiv
  by_cases hn : n < 0
  · have e : (n : Rat) = -(n.natAbs : Rat) := by
      have : n = -(n.natAbs : Int) := by omega
      exact_mod_cast this
    simp only [hn, if_true]
    rw [e]
    simp only [roundsTo, Int.cast_neg, Int.cast_natCast] at h ⊢
    rw [show (-(n.natAbs : Rat) / d - -(((2 * n.natAbs + d) / (2 * d) : Nat) : Rat)) =
      -((n.natAbs : Rat) / d - (((2 * n.natAbs + d) / (2 * d) : Nat) : Rat)) by ring, abs_neg, neg_div, abs_neg, abs_neg]
    exact h
  · have e : (n : Rat) = (n.natAbs : Rat) := by
      rw [← Int.cast_natCast, Int.natAbs_of_nonneg (by omega)]
    simp only [hn, if_false]
    rw [e]
    exact h

/-- A position rounds to one whole number only. -/
theorem roundsTo_unique (q : Rat) (a b : Int) (ha : roundsTo q a) (hb : roundsTo q b) : a = b := by
  by_contra hne
  obtain ⟨ha1, ha2⟩ := ha
  obtain ⟨hb1, hb2⟩ := hb
  rw [abs_le] at ha1 hb1
  have key : ∀ c d : Int, c < d → q - c ≤ 1 / 2 → -(1 / 2) ≤ q - d → d = c + 1 ∧ q = c + 1 / 2 := by
    intro c d hcd h1 h2
    have h3 : (d : Rat) ≤ c + 1 := by linarith
    have h4 : d ≤ c + 1 := by exact_mod_cast h3
    have h5 : d = c + 1 := by omega
    refine ⟨h5, ?_⟩
    have h6 : (d : Rat) = c + 1 := by exact_mod_cast h5
    linarith
  have fin : ∀ c d : Int, d = c + 1 → q = c + 1 / 2 → (|q - c| = 1 / 2 → |q| ≤ |(c : Rat)|) →
      (|q - d| = 1 / 2 → |q| ≤ |(d : Rat)|) → False := by
    intro c d h5 h6 hc hd
    have h7 : (d : Rat) = c + 1 := by exact_mod_cast h5
    have c1 := hc (by rw [show q - c = 1 / 2 by linarith]; norm_num)
    have d1 := hd (by rw [show q - d = -(1 / 2) by linarith]; norm_num)
    rw [h6] at c1 d1
    rw [h7] at d1
    rcases le_or_gt 0 c with h | h
    · have h' : (0 : Rat) ≤ c := by exact_mod_cast h
      rw [abs_of_nonneg (by linarith), abs_of_nonneg h'] at c1
      linarith
    · have h' : (c : Rat) ≤ -1 := by exact_mod_cast (by omega : c ≤ -1)
      rw [abs_of_nonpos (by linarith), abs_of_nonpos (by linarith)] at d1
      linarith
  rcases lt_or_gt_of_ne hne with h | h
  · obtain ⟨h5, h6⟩ := key a b h ha1.2 hb1.1
    exact fin a b h5 h6 ha2 hb2
  · obtain ⟨h5, h6⟩ := key b a h hb1.2 ha1.1
    exact fin b a h5 h6 hb2 ha2

/-! ### Square roots -/

theorem isqrtFrom_spec (n : Nat) : ∀ k r : Nat, r * r ≤ n → n < (r + 2 ^ k) * (r + 2 ^ k) →
    isqrtFrom n k r * isqrtFrom n k r ≤ n ∧ n < (isqrtFrom n k r + 1) * (isqrtFrom n k r + 1)
  | 0, r, h1, h2 => ⟨h1, by simpa [isqrtFrom] using h2⟩
  | k + 1, r, h1, h2 => by
    unfold isqrtFrom
    have e : 2 ^ (k + 1) = 2 ^ k + 2 ^ k := by rw [pow_succ]; omega
    split
    · next h => exact isqrtFrom_spec n k _ h (by rw [e] at h2; rwa [Nat.add_assoc])
    · next h => exact isqrtFrom_spec n k r h1 (by omega)

/-- `isqrt` is the greatest whole number whose square is not above `n`. -/
theorem isqrt_spec (n : Nat) : isqrt n * isqrt n ≤ n ∧ n < (isqrt n + 1) * (isqrt n + 1) := by
  refine isqrtFrom_spec n _ 0 (by omega) ?_
  have h := Nat.lt_log2_self (n := n)
  have e : (0 + 2 ^ (Nat.log2 n / 2 + 1)) * (0 + 2 ^ (Nat.log2 n / 2 + 1)) =
      2 ^ (2 * (Nat.log2 n / 2 + 1)) := by rw [Nat.zero_add, ← pow_add]; congr 1; omega
  rw [e]
  exact lt_of_lt_of_le h (Nat.pow_le_pow_right (by omega) (by omega))

/-- `roundSqrtDiv n d` is the square root of `n / d` rounded to the nearest whole number, halves up. -/
theorem roundSqrtDiv_spec (n d : Nat) (hd : 0 < d) :
    (roundSqrtDiv n d = 0 ∨ (2 * roundSqrtDiv n d - 1) * (2 * roundSqrtDiv n d - 1) * d ≤ 4 * n) ∧
    4 * n < (2 * roundSqrtDiv n d + 1) * (2 * roundSqrtDiv n d + 1) * d := by
  obtain ⟨h1, h2⟩ := isqrt_spec (4 * n / d)
  unfold roundSqrtDiv
  set k := isqrt (4 * n / d) with hk
  have h3 : k * k * d ≤ 4 * n := by
    calc k * k * d ≤ 4 * n / d * d := Nat.mul_le_mul_right d h1
      _ ≤ 4 * n := Nat.div_mul_le_self _ _
  have h4 : 4 * n < (k + 1) * (k + 1) * d := by
    have := Nat.lt_div_mul_add (a := 4 * n) hd
    calc 4 * n < 4 * n / d * d + d := this
      _ = (4 * n / d + 1) * d := by ring
      _ ≤ (k + 1) * (k + 1) * d := Nat.mul_le_mul_right d h2
  constructor
  · rcases Nat.eq_zero_or_pos ((k + 1) / 2) with h | h
    · exact Or.inl h
    · right
      have : 2 * ((k + 1) / 2) - 1 ≤ k := by omega
      exact le_trans (Nat.mul_le_mul_right d (Nat.mul_le_mul this this)) h3
  · have : k + 1 ≤ 2 * ((k + 1) / 2) + 1 := by omega
    exact lt_of_lt_of_le h4 (Nat.mul_le_mul_right d (Nat.mul_le_mul this this))

/-! ### Sorting -/

theorem insertBy_perm {α : Type} (before : α → α → Bool) (a : α) : ∀ l : List α, (insertBy before a l).Perm (a :: l)
  | [] => List.Perm.refl _
  | b :: l => by
    unfold insertBy
    split
    · exact ((insertBy_perm before a l).cons b).trans (List.Perm.swap a b l)
    · exact List.Perm.refl _

/-- Sorting keeps the elements. -/
theorem sortBy_perm {α : Type} (before : α → α → Bool) : ∀ l : List α, (sortBy before l).Perm l
  | [] => List.Perm.refl _
  | a :: l => (insertBy_perm before a _).trans ((sortBy_perm before l).cons a)

theorem insertBy_sorted {α : Type} (before : α → α → Bool) (P : α → Prop)
    (trans : ∀ x y z, before x y = true → before y z = true → before x z = true)
    (total : ∀ x y, P x → P y → before x y = true ∨ x = y ∨ before y x = true) (a : α) (ha : P a) :
    ∀ l : List α, (∀ b ∈ l, P b) → a ∉ l → l.Pairwise (fun x y => before x y = true) →
      (insertBy before a l).Pairwise (fun x y => before x y = true)
  | [], _, _, _ => List.pairwise_singleton _ _
  | b :: l, hP, hn, hs => by
    unfold insertBy
    rw [List.pairwise_cons] at hs
    split
    · next h =>
      rw [List.pairwise_cons]
      refine ⟨fun y hy => ?_, insertBy_sorted before P trans total a ha l (fun y hy => hP y (List.mem_cons_of_mem _ hy))
        (fun hm => hn (List.mem_cons_of_mem _ hm)) hs.2⟩
      rcases List.mem_cons.mp ((insertBy_perm before a l).mem_iff.mp hy) with e | hm
      · rw [e]; exact h
      · exact hs.1 y hm
    · next h =>
      have hab : before a b = true := by
        rcases total a b ha (hP b List.mem_cons_self) with h1 | h1 | h1
        · exact h1
        · exact absurd (h1 ▸ List.mem_cons_self) hn
        · exact absurd h1 h
      rw [List.pairwise_cons, List.pairwise_cons]
      refine ⟨fun y hy => ?_, hs⟩
      rcases List.mem_cons.mp hy with e | hm
      · rw [e]; exact hab
      · exact trans a b y hab (hs.1 y hm)

/-- A list without repeats, sorted by an order that is transitive and total on its elements, ascends. -/
theorem sortBy_sorted {α : Type} (before : α → α → Bool) (P : α → Prop)
    (trans : ∀ x y z, before x y = true → before y z = true → before x z = true)
    (total : ∀ x y, P x → P y → before x y = true ∨ x = y ∨ before y x = true) :
    ∀ l : List α, (∀ b ∈ l, P b) → l.Nodup → (sortBy before l).Pairwise (fun x y => before x y = true)
  | [], _, _ => List.Pairwise.nil
  | a :: l, hP, hn => by
    rw [List.nodup_cons] at hn
    have hp := sortBy_perm before l
    exact insertBy_sorted before P trans total a (hP a List.mem_cons_self) _
      (fun b hb => hP b (List.mem_cons_of_mem _ (hp.mem_iff.mp hb))) (fun hm => hn.1 (hp.mem_iff.mp hm))
      (sortBy_sorted before P trans total l (fun b hb => hP b (List.mem_cons_of_mem _ hb)) hn.2)

end Sys2Proof.Machine
end

