-- ==== Sys2Proof/Laws/Checks.lean ====
section
/-! SUPPORT. What the mark unit's arithmetic computes, as statements about quotients: the corrected point (R65), the seam
deviation (R60), and the four ratios of the geometry check (R61). -/

namespace Sys2Proof.Machine

/-- `blend` is the bilinear blend at x across and y along, rounded to the nearest count (R65). -/
theorem roundsTo_blend (sp pitch : Nat) (a b l r l' r' : Int) (hs : 0 < sp) (hp : 0 < pitch) :
    let x : Rat := (a : Rat) / sp
    let y : Rat := (b : Rat) / pitch
    roundsTo ((1 - x) * (1 - y) * l + x * (1 - y) * r + (1 - x) * y * l' + x * y * r')
      (blend sp pitch a b l r l' r') := by
  intro x y
  unfold blend
  have h := roundsTo_roundDiv
    ((sp - a) * (pitch - b) * l + a * (pitch - b) * r + (sp - a) * b * l' + a * b * r') (sp * pitch) (Nat.mul_pos hs hp)
  have hs' : (sp : Rat) ≠ 0 := by exact_mod_cast hs.ne'
  have hp' : (pitch : Rat) ≠ 0 := by exact_mod_cast hp.ne'
  convert h using 1
  simp only [x, y]
  push_cast
  field_simp

/-- The square of a distance, as whole numbers. -/
theorem distSq_eq (a b : BedPos) : (distSq a b : Int) = (b.x - a.x) ^ 2 + (b.y - a.y) ^ 2 := by
  unfold distSq
  rw [Int.toNat_of_nonneg (by nlinarith [mul_self_nonneg (a.x - b.x), mul_self_nonneg (a.y - b.y)])]
  ring

/-- `distSq` does not depend on the order of its two positions. -/
theorem distSq_comm (a b : BedPos) : distSq a b = distSq b a := by
  have h : (distSq a b : Int) = distSq b a := by rw [distSq_eq, distSq_eq]; ring
  exact_mod_cast h

/-- A width ratio passes when it lies within 1 ± GEOM_TOL (R61). -/
theorem widthOk_iff (spacing tol w : Nat) (hs : 0 < spacing) (ht : tol ≤ 10000) : widthOk spacing tol w = true ↔
    (1 - (tol : Rat) / 10000 ≤ (w : Rat) / spacing ∧ (w : Rat) / spacing ≤ 1 + (tol : Rat) / 10000) := by
  have hs' : (0 : Rat) < spacing := by exact_mod_cast hs
  have hsub : ((10000 - tol : Nat) : Rat) = 10000 - (tol : Rat) := by push_cast [Nat.cast_sub ht]; ring
  unfold widthOk
  rw [Bool.and_eq_true, decide_eq_true_eq, decide_eq_true_eq]
  constructor
  · rintro ⟨h1, h2⟩
    have e1 : ((10000 - tol : Nat) : Rat) * spacing ≤ 10000 * w := by exact_mod_cast h1
    have e2 : (10000 : Rat) * w ≤ (10000 + tol) * spacing := by exact_mod_cast h2
    rw [hsub] at e1
    constructor
    · rw [le_div_iff₀ hs']; linarith
    · rw [div_le_iff₀ hs']; linarith
  · rintro ⟨h1, h2⟩
    rw [le_div_iff₀ hs'] at h1
    rw [div_le_iff₀ hs'] at h2
    constructor
    · have : ((10000 - tol : Nat) : Rat) * spacing ≤ 10000 * w := by rw [hsub]; linarith
      exact_mod_cast this
    · have : (10000 : Rat) * w ≤ (10000 + tol) * spacing := by linarith
      exact_mod_cast this

/-- A width ratio in parts per million, rounded (R61). -/
theorem roundsTo_widthPpm (spacing w : Nat) (hs : 0 < spacing) :
    roundsTo (1000000 * ((w : Rat) / spacing)) (widthPpm spacing w : Nat) := by
  have h := roundsTo_half (1000000 * w) spacing hs
  unfold widthPpm
  rw [show 2 * 1000000 * w + spacing = 2 * (1000000 * w) + spacing by ring]
  convert h using 1
  push_cast
  ring

/-- A height ratio passes when its square lies within the squares of 1 ± GEOM_TOL (R61). -/
theorem heightOk_iff (pitch tol d : Nat) (hp : 0 < pitch) (ht : tol ≤ 10000) : heightOk pitch tol d = true ↔
    ((1 - (tol : Rat) / 10000) ^ 2 ≤ (d : Rat) / (pitch : Rat) ^ 2 ∧
      (d : Rat) / (pitch : Rat) ^ 2 ≤ (1 + (tol : Rat) / 10000) ^ 2) := by
  have hp' : (0 : Rat) < (pitch : Rat) ^ 2 := by positivity
  have hsub : ((10000 - tol : Nat) : Rat) = 10000 - (tol : Rat) := by push_cast [Nat.cast_sub ht]; ring
  unfold heightOk
  rw [Bool.and_eq_true, decide_eq_true_eq, decide_eq_true_eq]
  constructor
  · rintro ⟨h1, h2⟩
    have e1 : ((10000 - tol : Nat) : Rat) * pitch * (((10000 - tol : Nat) : Rat) * pitch) ≤ 100000000 * d := by
      exact_mod_cast h1
    have e2 : (100000000 : Rat) * d ≤ (10000 + tol) * pitch * ((10000 + tol) * pitch) := by exact_mod_cast h2
    rw [hsub] at e1
    constructor
    · rw [le_div_iff₀ hp']; nlinarith
    · rw [div_le_iff₀ hp']; nlinarith
  · rintro ⟨h1, h2⟩
    rw [le_div_iff₀ hp'] at h1
    rw [div_le_iff₀ hp'] at h2
    constructor
    · have : ((10000 - tol : Nat) : Rat) * pitch * (((10000 - tol : Nat) : Rat) * pitch) ≤ 100000000 * d := by
        rw [hsub]; nlinarith
      exact_mod_cast this
    · have : (100000000 : Rat) * d ≤ (10000 + tol) * pitch * ((10000 + tol) * pitch) := by nlinarith
      exact_mod_cast this

/-- `roundSqrtDiv n d` is the square root of n / d rounded to the nearest whole number (0-5.2), by squares. -/
theorem roundSqrtDiv_bounds (n d : Nat) (hd : 0 < d) :
    (roundSqrtDiv n d = 0 ∨ (2 * (roundSqrtDiv n d : Rat) - 1) ^ 2 ≤ 4 * ((n : Rat) / d)) ∧
    4 * ((n : Rat) / d) < (2 * (roundSqrtDiv n d : Rat) + 1) ^ 2 := by
  obtain ⟨h1, h2⟩ := roundSqrtDiv_spec n d hd
  have hd' : (0 : Rat) < d := by exact_mod_cast hd
  set k := roundSqrtDiv n d
  constructor
  · rcases h1 with h | h
    · exact Or.inl h
    · rcases Nat.eq_zero_or_pos k with h0 | h0
      · exact Or.inl h0
      · right
        have e : ((2 * k - 1 : Nat) : Rat) = 2 * (k : Rat) - 1 := by push_cast [Nat.cast_sub (by omega : 1 ≤ 2 * k)]; ring
        have e1 : ((2 * k - 1 : Nat) : Rat) * ((2 * k - 1 : Nat) : Rat) * d ≤ 4 * n := by exact_mod_cast h
        rw [e] at e1
        have : (2 * (k : Rat) - 1) ^ 2 ≤ 4 * n / d := by rw [le_div_iff₀ hd']; linarith
        linarith [mul_div_assoc (4 : Rat) n d]
  · have e2 : (4 : Rat) * n < (2 * k + 1) * (2 * k + 1) * d := by exact_mod_cast h2
    have : (4 : Rat) * n / d < (2 * (k : Rat) + 1) ^ 2 := by rw [div_lt_iff₀ hd']; linarith
    linarith [mul_div_assoc (4 : Rat) n d]

end Sys2Proof.Machine
end

