-- ==== Sys2Proof/Laws/Contour.lean ====
section
/-! SUPPORT. The contour store as an addressed memory: what a place reads as after a write, and that every operation
keeps the canonical form. -/

namespace Sys2Proof.Machine

/-- Every place listed is above a bound. -/
def Contour.above (a : Nat) (c : List (Nat × Vertex)) : Prop := ∀ q ∈ c, a < q.1

/-- The canonical form, cell by cell. -/
theorem Contour.wf_cons (k : Nat) (w : Vertex) (c : List (Nat × Vertex)) :
    Contour.wf ((k, w) :: c) = true ↔ w ≠ Contour.blank ∧ Contour.above k c ∧ Contour.wf c = true := by
  induction c generalizing k w with
  | nil => simp [Contour.wf, Contour.above]
  | cons q c ih =>
    obtain ⟨k', w'⟩ := q
    have e : Contour.wf ((k, w) :: (k', w') :: c) = (w ≠ Contour.blank && k < k' && Contour.wf ((k', w') :: c)) := rfl
    rw [e]
    simp only [Bool.and_eq_true, decide_eq_true_eq]
    rw [ih k' w']
    constructor
    · rintro ⟨⟨hw, hk⟩, hw', ha, hc⟩
      refine ⟨hw, ?_, hw', ha, hc⟩
      intro q hq
      rcases List.mem_cons.mp hq with rfl | hq
      · exact hk
      · exact Nat.lt_trans hk (ha q hq)
    · rintro ⟨hw, ha, hw', ha', hc⟩
      exact ⟨⟨hw, ha _ List.mem_cons_self⟩, hw', ha', hc⟩

/-- A place below every listed one reads as an unlisted one. -/
theorem Contour.read_above {a b : Nat} {c : List (Nat × Vertex)} (h : Contour.above a c) (le : b ≤ a) :
    Contour.read c b = Contour.blank := by
  induction c with
  | nil => rfl
  | cons q c ih =>
    obtain ⟨k, w⟩ := q
    have hk : a < k := h (k, w) List.mem_cons_self
    rw [Contour.read, if_neg (by omega)]
    exact ih fun q hq => h q (List.mem_cons_of_mem _ hq)

theorem Contour.read_put (a b : Nat) (w : Vertex) (c : List (Nat × Vertex)) :
    Contour.read (Contour.put a w c) b = if b = a then w else Contour.read c b := by
  induction c with
  | nil => simp [Contour.put, Contour.read, eq_comm]
  | cons q c ih =>
    obtain ⟨k, x⟩ := q
    unfold Contour.put
    by_cases h1 : a < k
    · rw [if_pos h1]
      by_cases e : b = a
      · simp [Contour.read, e]
      · simp [Contour.read, e, Ne.symm e]
    · rw [if_neg h1]
      by_cases h2 : a = k
      · rw [if_pos h2]
        subst h2
        by_cases e : b = a
        · simp [Contour.read, e]
        · simp [Contour.read, e, Ne.symm e]
      · rw [if_neg h2]
        rw [Contour.read, Contour.read, ih]
        by_cases e : k = b
        · have : b ≠ a := fun x => h2 (by omega)
          simp [e, this]
        · simp [e]

theorem Contour.read_erase (a b : Nat) (c : List (Nat × Vertex)) :
    Contour.read (Contour.erase a c) b = if b = a then Contour.blank else Contour.read c b := by
  induction c with
  | nil => simp [Contour.erase, Contour.read]
  | cons q c ih =>
    obtain ⟨k, x⟩ := q
    unfold Contour.erase at ih ⊢
    by_cases h : k = a
    · rw [List.filter_cons_of_neg (by simp [h]), ih]
      by_cases e : b = a
      · simp [e]
      · have : k ≠ b := by omega
        simp [e, Contour.read, this]
    · rw [List.filter_cons_of_pos (by simp [h]), Contour.read, ih, Contour.read]
      by_cases e : k = b
      · have : b ≠ a := by omega
        simp [e, this]
      · simp [e]

/-- A place reads as the last vertex written to it. -/
theorem Contour.read_write (a b : Nat) (w : Vertex) (c : List (Nat × Vertex)) :
    Contour.read (Contour.write a w c) b = if b = a then w else Contour.read c b := by
  unfold Contour.write
  split
  · rename_i h
    rw [Contour.read_erase, h]
  · exact Contour.read_put a b w c

theorem Contour.above_put {k a : Nat} {w : Vertex} {c : List (Nat × Vertex)} (h : Contour.above k c) (lt : k < a) :
    Contour.above k (Contour.put a w c) := by
  induction c with
  | nil =>
    intro q hq
    rcases List.mem_singleton.mp hq with rfl
    exact lt
  | cons p c ih =>
    obtain ⟨k', x⟩ := p
    have hk : k < k' := h (k', x) List.mem_cons_self
    have hc : Contour.above k c := fun q hq => h q (List.mem_cons_of_mem _ hq)
    unfold Contour.put
    intro q hq
    split at hq
    · rcases List.mem_cons.mp hq with rfl | hq
      · exact lt
      · exact h q hq
    · split at hq
      · rcases List.mem_cons.mp hq with rfl | hq
        · exact lt
        · exact hc q hq
      · rcases List.mem_cons.mp hq with rfl | hq
        · exact hk
        · exact ih hc q hq

theorem Contour.wf_put {a : Nat} {w : Vertex} {c : List (Nat × Vertex)} (hw : w ≠ Contour.blank)
    (h : Contour.wf c = true) : Contour.wf (Contour.put a w c) = true := by
  induction c with
  | nil => simp [Contour.put, Contour.wf, hw]
  | cons p c ih =>
    obtain ⟨k, x⟩ := p
    have hp := (Contour.wf_cons k x c).mp h
    unfold Contour.put
    split
    · rename_i lt
      rw [Contour.wf_cons]
      refine ⟨hw, ?_, h⟩
      intro q hq
      rcases List.mem_cons.mp hq with rfl | hq
      · exact lt
      · exact Nat.lt_trans lt (hp.2.1 q hq)
    · split
      · rename_i e
        subst e
        exact (Contour.wf_cons _ _ _).mpr ⟨hw, hp.2.1, hp.2.2⟩
      · exact (Contour.wf_cons _ _ _).mpr ⟨hp.1, Contour.above_put hp.2.1 (by omega), ih hp.2.2⟩

theorem Contour.wf_erase {a : Nat} {c : List (Nat × Vertex)} (h : Contour.wf c = true) :
    Contour.wf (Contour.erase a c) = true := by
  induction c with
  | nil => rfl
  | cons p c ih =>
    obtain ⟨k, x⟩ := p
    have hp := (Contour.wf_cons k x c).mp h
    unfold Contour.erase at ih ⊢
    rw [List.filter_cons]
    split
    · refine (Contour.wf_cons _ _ _).mpr ⟨hp.1, fun q hq => hp.2.1 q (List.mem_filter.mp hq).1, ih hp.2.2⟩
    · exact ih hp.2.2

/-- A write keeps the canonical form. -/
theorem Contour.wf_write (a : Nat) (w : Vertex) {c : List (Nat × Vertex)} (h : Contour.wf c = true) :
    Contour.wf (Contour.write a w c) = true := by
  unfold Contour.write
  split
  · exact Contour.wf_erase h
  · rename_i hw
    exact Contour.wf_put hw h

/-- A record's vertices stored keep the canonical form. -/
theorem wf_storeFrom (chain : List Nat) (first : Nat) (ws : List RawVertex) {c : List (Nat × Vertex)}
    (h : Contour.wf c = true) : Contour.wf (storeFrom chain first ws c) = true := by
  induction ws generalizing first c with
  | nil => exact h
  | cons w ws ih => exact ih _ (Contour.wf_write _ _ h)

end Sys2Proof.Machine
end

