-- ==== Sys2Proof/Laws/State.lean ====
section
/-! SUPPORT. One lemma for each field of State after each unit update: the updated unit, and every other unit as it was. -/

namespace Sys2Proof.Machine

@[simp] theorem State.pending_withLink (s : State) (x : LinkPort) : (s.withLink x).pending = s.pending := rfl
@[simp] theorem State.link_withLink (s : State) (x : LinkPort) : (s.withLink x).link = x := rfl
@[simp] theorem State.store_withLink (s : State) (x : LinkPort) : (s.withLink x).store = s.store := rfl
@[simp] theorem State.nest_withLink (s : State) (x : LinkPort) : (s.withLink x).nest = s.nest := rfl
@[simp] theorem State.marks_withLink (s : State) (x : LinkPort) : (s.withLink x).marks = s.marks := rfl
@[simp] theorem State.plan_withLink (s : State) (x : LinkPort) : (s.withLink x).plan = s.plan := rfl
@[simp] theorem State.cycle_withLink (s : State) (x : LinkPort) : (s.withLink x).cycle = s.cycle := rfl
@[simp] theorem State.motion_withLink (s : State) (x : LinkPort) : (s.withLink x).motion = s.motion := rfl
@[simp] theorem State.bed_withLink (s : State) (x : LinkPort) : (s.withLink x).bed = s.bed := rfl

@[simp] theorem State.pending_withStore (s : State) (x : PanelStore) : (s.withStore x).pending = s.pending := rfl
@[simp] theorem State.link_withStore (s : State) (x : PanelStore) : (s.withStore x).link = s.link := rfl
@[simp] theorem State.store_withStore (s : State) (x : PanelStore) : (s.withStore x).store = x := rfl
@[simp] theorem State.nest_withStore (s : State) (x : PanelStore) : (s.withStore x).nest = s.nest := rfl
@[simp] theorem State.marks_withStore (s : State) (x : PanelStore) : (s.withStore x).marks = s.marks := rfl
@[simp] theorem State.plan_withStore (s : State) (x : PanelStore) : (s.withStore x).plan = s.plan := rfl
@[simp] theorem State.cycle_withStore (s : State) (x : PanelStore) : (s.withStore x).cycle = s.cycle := rfl
@[simp] theorem State.motion_withStore (s : State) (x : PanelStore) : (s.withStore x).motion = s.motion := rfl
@[simp] theorem State.bed_withStore (s : State) (x : PanelStore) : (s.withStore x).bed = s.bed := rfl

@[simp] theorem State.pending_withNest (s : State) (x : NestUnit) : (s.withNest x).pending = s.pending := rfl
@[simp] theorem State.link_withNest (s : State) (x : NestUnit) : (s.withNest x).link = s.link := rfl
@[simp] theorem State.store_withNest (s : State) (x : NestUnit) : (s.withNest x).store = s.store := rfl
@[simp] theorem State.nest_withNest (s : State) (x : NestUnit) : (s.withNest x).nest = x := rfl
@[simp] theorem State.marks_withNest (s : State) (x : NestUnit) : (s.withNest x).marks = s.marks := rfl
@[simp] theorem State.plan_withNest (s : State) (x : NestUnit) : (s.withNest x).plan = s.plan := rfl
@[simp] theorem State.cycle_withNest (s : State) (x : NestUnit) : (s.withNest x).cycle = s.cycle := rfl
@[simp] theorem State.motion_withNest (s : State) (x : NestUnit) : (s.withNest x).motion = s.motion := rfl
@[simp] theorem State.bed_withNest (s : State) (x : NestUnit) : (s.withNest x).bed = s.bed := rfl

@[simp] theorem State.pending_withMarks (s : State) (x : MarkUnit) : (s.withMarks x).pending = s.pending := rfl
@[simp] theorem State.link_withMarks (s : State) (x : MarkUnit) : (s.withMarks x).link = s.link := rfl
@[simp] theorem State.store_withMarks (s : State) (x : MarkUnit) : (s.withMarks x).store = s.store := rfl
@[simp] theorem State.nest_withMarks (s : State) (x : MarkUnit) : (s.withMarks x).nest = s.nest := rfl
@[simp] theorem State.marks_withMarks (s : State) (x : MarkUnit) : (s.withMarks x).marks = x := rfl
@[simp] theorem State.plan_withMarks (s : State) (x : MarkUnit) : (s.withMarks x).plan = s.plan := rfl
@[simp] theorem State.cycle_withMarks (s : State) (x : MarkUnit) : (s.withMarks x).cycle = s.cycle := rfl
@[simp] theorem State.motion_withMarks (s : State) (x : MarkUnit) : (s.withMarks x).motion = s.motion := rfl
@[simp] theorem State.bed_withMarks (s : State) (x : MarkUnit) : (s.withMarks x).bed = s.bed := rfl

@[simp] theorem State.pending_withPlan (s : State) (x : Planner) : (s.withPlan x).pending = s.pending := rfl
@[simp] theorem State.link_withPlan (s : State) (x : Planner) : (s.withPlan x).link = s.link := rfl
@[simp] theorem State.store_withPlan (s : State) (x : Planner) : (s.withPlan x).store = s.store := rfl
@[simp] theorem State.nest_withPlan (s : State) (x : Planner) : (s.withPlan x).nest = s.nest := rfl
@[simp] theorem State.marks_withPlan (s : State) (x : Planner) : (s.withPlan x).marks = s.marks := rfl
@[simp] theorem State.plan_withPlan (s : State) (x : Planner) : (s.withPlan x).plan = x := rfl
@[simp] theorem State.cycle_withPlan (s : State) (x : Planner) : (s.withPlan x).cycle = s.cycle := rfl
@[simp] theorem State.motion_withPlan (s : State) (x : Planner) : (s.withPlan x).motion = s.motion := rfl
@[simp] theorem State.bed_withPlan (s : State) (x : Planner) : (s.withPlan x).bed = s.bed := rfl

@[simp] theorem State.pending_withCycle (s : State) (x : CycleControl) : (s.withCycle x).pending = s.pending := rfl
@[simp] theorem State.link_withCycle (s : State) (x : CycleControl) : (s.withCycle x).link = s.link := rfl
@[simp] theorem State.store_withCycle (s : State) (x : CycleControl) : (s.withCycle x).store = s.store := rfl
@[simp] theorem State.nest_withCycle (s : State) (x : CycleControl) : (s.withCycle x).nest = s.nest := rfl
@[simp] theorem State.marks_withCycle (s : State) (x : CycleControl) : (s.withCycle x).marks = s.marks := rfl
@[simp] theorem State.plan_withCycle (s : State) (x : CycleControl) : (s.withCycle x).plan = s.plan := rfl
@[simp] theorem State.cycle_withCycle (s : State) (x : CycleControl) : (s.withCycle x).cycle = x := rfl
@[simp] theorem State.motion_withCycle (s : State) (x : CycleControl) : (s.withCycle x).motion = s.motion := rfl
@[simp] theorem State.bed_withCycle (s : State) (x : CycleControl) : (s.withCycle x).bed = s.bed := rfl

@[simp] theorem State.pending_withMotion (s : State) (x : MotionUnit) : (s.withMotion x).pending = s.pending := rfl
@[simp] theorem State.link_withMotion (s : State) (x : MotionUnit) : (s.withMotion x).link = s.link := rfl
@[simp] theorem State.store_withMotion (s : State) (x : MotionUnit) : (s.withMotion x).store = s.store := rfl
@[simp] theorem State.nest_withMotion (s : State) (x : MotionUnit) : (s.withMotion x).nest = s.nest := rfl
@[simp] theorem State.marks_withMotion (s : State) (x : MotionUnit) : (s.withMotion x).marks = s.marks := rfl
@[simp] theorem State.plan_withMotion (s : State) (x : MotionUnit) : (s.withMotion x).plan = s.plan := rfl
@[simp] theorem State.cycle_withMotion (s : State) (x : MotionUnit) : (s.withMotion x).cycle = s.cycle := rfl
@[simp] theorem State.motion_withMotion (s : State) (x : MotionUnit) : (s.withMotion x).motion = x := rfl
@[simp] theorem State.bed_withMotion (s : State) (x : MotionUnit) : (s.withMotion x).bed = s.bed := rfl

@[simp] theorem State.pending_withBed (s : State) (x : BedIO) : (s.withBed x).pending = s.pending := rfl
@[simp] theorem State.link_withBed (s : State) (x : BedIO) : (s.withBed x).link = s.link := rfl
@[simp] theorem State.store_withBed (s : State) (x : BedIO) : (s.withBed x).store = s.store := rfl
@[simp] theorem State.nest_withBed (s : State) (x : BedIO) : (s.withBed x).nest = s.nest := rfl
@[simp] theorem State.marks_withBed (s : State) (x : BedIO) : (s.withBed x).marks = s.marks := rfl
@[simp] theorem State.plan_withBed (s : State) (x : BedIO) : (s.withBed x).plan = s.plan := rfl
@[simp] theorem State.cycle_withBed (s : State) (x : BedIO) : (s.withBed x).cycle = s.cycle := rfl
@[simp] theorem State.motion_withBed (s : State) (x : BedIO) : (s.withBed x).motion = s.motion := rfl
@[simp] theorem State.bed_withBed (s : State) (x : BedIO) : (s.withBed x).bed = x := rfl

@[simp] theorem State.pending_setPanel (s : State) (i : Slot) (p : Panel) : (s.setPanel i p).pending = s.pending := rfl
@[simp] theorem State.pending_emit (s : State) (n : OutRecord) : (s.emit n).pending = s.pending := rfl
@[simp] theorem State.pending_flush (s : State) : s.flush.pending = s.pending := rfl
@[simp] theorem State.pending_begin (s : State) : s.begin.pending = s.pending := rfl
@[simp] theorem State.pending_queueReply (s : State) (k t : Byte) (st : Status) (d : List Byte)
    (r : Option (Fin 4)) : (s.queueReply k t st d r).pending = s.pending := rfl
@[simp] theorem State.pending_watchExpires (s : State) : s.watchExpires.pending = s.pending := by
  unfold State.watchExpires; split <;> rfl
@[simp] theorem State.link_setPanel (s : State) (i : Slot) (p : Panel) : (s.setPanel i p).link = s.link := rfl
@[simp] theorem State.store_emit (s : State) (n : OutRecord) : (s.emit n).store = s.store := rfl
@[simp] theorem State.store_flush (s : State) : s.flush.store = s.store := rfl
@[simp] theorem State.store_begin (s : State) : s.begin.store = s.store := rfl
@[simp] theorem State.store_queueReply (s : State) (k t : Byte) (st : Status) (d : List Byte)
    (r : Option (Fin 4)) : (s.queueReply k t st d r).store = s.store := rfl
@[simp] theorem State.store_watchExpires (s : State) : s.watchExpires.store = s.store := by
  unfold State.watchExpires; split <;> rfl
@[simp] theorem State.nest_setPanel (s : State) (i : Slot) (p : Panel) : (s.setPanel i p).nest = s.nest := rfl
@[simp] theorem State.nest_emit (s : State) (n : OutRecord) : (s.emit n).nest = s.nest := rfl
@[simp] theorem State.nest_flush (s : State) : s.flush.nest = s.nest := rfl
@[simp] theorem State.nest_begin (s : State) : s.begin.nest = s.nest := rfl
@[simp] theorem State.nest_queueReply (s : State) (k t : Byte) (st : Status) (d : List Byte)
    (r : Option (Fin 4)) : (s.queueReply k t st d r).nest = s.nest := rfl
@[simp] theorem State.nest_watchExpires (s : State) : s.watchExpires.nest = s.nest := by
  unfold State.watchExpires; split <;> rfl
@[simp] theorem State.marks_setPanel (s : State) (i : Slot) (p : Panel) : (s.setPanel i p).marks = s.marks := rfl
@[simp] theorem State.marks_emit (s : State) (n : OutRecord) : (s.emit n).marks = s.marks := rfl
@[simp] theorem State.marks_flush (s : State) : s.flush.marks = s.marks := rfl
@[simp] theorem State.marks_begin (s : State) : s.begin.marks = s.marks := rfl
@[simp] theorem State.marks_queueReply (s : State) (k t : Byte) (st : Status) (d : List Byte)
    (r : Option (Fin 4)) : (s.queueReply k t st d r).marks = s.marks := rfl
@[simp] theorem State.marks_watchExpires (s : State) : s.watchExpires.marks = s.marks := by
  unfold State.watchExpires; split <;> rfl
@[simp] theorem State.plan_setPanel (s : State) (i : Slot) (p : Panel) : (s.setPanel i p).plan = s.plan := rfl
@[simp] theorem State.plan_emit (s : State) (n : OutRecord) : (s.emit n).plan = s.plan := rfl
@[simp] theorem State.plan_flush (s : State) : s.flush.plan = s.plan := rfl
@[simp] theorem State.plan_begin (s : State) : s.begin.plan = s.plan := rfl
@[simp] theorem State.plan_queueReply (s : State) (k t : Byte) (st : Status) (d : List Byte)
    (r : Option (Fin 4)) : (s.queueReply k t st d r).plan = s.plan := rfl
@[simp] theorem State.plan_watchExpires (s : State) : s.watchExpires.plan = s.plan := by
  unfold State.watchExpires; split <;> rfl
@[simp] theorem State.cycle_setPanel (s : State) (i : Slot) (p : Panel) : (s.setPanel i p).cycle = s.cycle := rfl
@[simp] theorem State.cycle_emit (s : State) (n : OutRecord) : (s.emit n).cycle = s.cycle := rfl
@[simp] theorem State.cycle_flush (s : State) : s.flush.cycle = s.cycle := rfl
@[simp] theorem State.cycle_begin (s : State) : s.begin.cycle = s.cycle := rfl
@[simp] theorem State.cycle_queueReply (s : State) (k t : Byte) (st : Status) (d : List Byte)
    (r : Option (Fin 4)) : (s.queueReply k t st d r).cycle = s.cycle := rfl
@[simp] theorem State.cycle_watchExpires (s : State) : s.watchExpires.cycle = s.cycle := by
  unfold State.watchExpires; split <;> rfl
@[simp] theorem State.motion_setPanel (s : State) (i : Slot) (p : Panel) : (s.setPanel i p).motion = s.motion := rfl
@[simp] theorem State.motion_emit (s : State) (n : OutRecord) : (s.emit n).motion = s.motion := rfl
@[simp] theorem State.motion_flush (s : State) : s.flush.motion = s.motion := rfl
@[simp] theorem State.motion_begin (s : State) : s.begin.motion = s.motion := rfl
@[simp] theorem State.motion_queueReply (s : State) (k t : Byte) (st : Status) (d : List Byte)
    (r : Option (Fin 4)) : (s.queueReply k t st d r).motion = s.motion := rfl
@[simp] theorem State.motion_watchExpires (s : State) : s.watchExpires.motion = s.motion := by
  unfold State.watchExpires; split <;> rfl
@[simp] theorem State.bed_setPanel (s : State) (i : Slot) (p : Panel) : (s.setPanel i p).bed = s.bed := rfl
@[simp] theorem State.bed_emit (s : State) (n : OutRecord) : (s.emit n).bed = s.bed := rfl
@[simp] theorem State.bed_flush (s : State) : s.flush.bed = s.bed := rfl
@[simp] theorem State.bed_begin (s : State) : s.begin.bed = s.bed := rfl
@[simp] theorem State.bed_queueReply (s : State) (k t : Byte) (st : Status) (d : List Byte)
    (r : Option (Fin 4)) : (s.queueReply k t st d r).bed = s.bed := rfl
@[simp] theorem State.bed_watchExpires (s : State) : s.watchExpires.bed = s.bed := by
  unfold State.watchExpires; split <;> rfl
@[simp] theorem State.pending_clearReasons (s : State) : s.clearReasons.pending = s.pending := rfl
@[simp] theorem State.pending_clearOwed (s : State) : s.clearOwed.pending = s.pending := rfl
@[simp] theorem State.pending_setCycle (s : State) (st : CycleState) : (s.setCycle st).pending = s.pending := rfl
@[simp] theorem State.pending_raiseTools (s : State) : s.raiseTools.pending = s.pending := rfl
@[simp] theorem State.pending_lowerTool (s : State) (t : Tool) : (s.lowerTool t).pending = s.pending := by
  cases t <;> rfl
@[simp] theorem State.pending_faultStop (s : State) (e : Option Entry) : (s.faultStop e).pending = s.pending := rfl
@[simp] theorem State.pending_place (s : State) (e : Entry) : (s.place e).pending = s.pending := by
  unfold State.place; split <;> rfl
@[simp] theorem State.pending_endEntry (s : State) : s.endEntry.pending = s.pending := rfl
@[simp] theorem State.pending_releaseZones (s : State) : s.releaseZones.pending = s.pending := rfl
@[simp] theorem State.pending_windowZonesOn (s : State) : s.windowZonesOn.pending = s.pending := rfl
@[simp] theorem State.pending_setLine (s : State) (i : Fin 8) (l : Line) : (s.setLine i l).pending = s.pending := rfl
@[simp] theorem State.pending_invalidate (s : State) : s.invalidate.pending = s.pending := rfl
@[simp] theorem State.pending_mapWorklist (s : State) (f : Worklist → Worklist) :
    (s.mapWorklist f).pending = s.pending := rfl
@[simp] theorem State.pending_withdrawPlanner (s : State) : s.withdrawPlanner.pending = s.pending := rfl
@[simp] theorem State.link_clearReasons (s : State) : s.clearReasons.link = s.link := rfl
@[simp] theorem State.link_clearOwed (s : State) : s.clearOwed.link = s.link := rfl
@[simp] theorem State.link_setCycle (s : State) (st : CycleState) : (s.setCycle st).link = s.link := rfl
@[simp] theorem State.link_raiseTools (s : State) : s.raiseTools.link = s.link := rfl
@[simp] theorem State.link_lowerTool (s : State) (t : Tool) : (s.lowerTool t).link = s.link := by
  cases t <;> rfl
@[simp] theorem State.link_faultStop (s : State) (e : Option Entry) : (s.faultStop e).link = s.link := rfl
@[simp] theorem State.link_place (s : State) (e : Entry) : (s.place e).link = s.link := by
  unfold State.place; split <;> rfl
@[simp] theorem State.link_endEntry (s : State) : s.endEntry.link = s.link := rfl
@[simp] theorem State.link_releaseZones (s : State) : s.releaseZones.link = s.link := rfl
@[simp] theorem State.link_windowZonesOn (s : State) : s.windowZonesOn.link = s.link := rfl
@[simp] theorem State.link_setLine (s : State) (i : Fin 8) (l : Line) : (s.setLine i l).link = s.link := rfl
@[simp] theorem State.link_invalidate (s : State) : s.invalidate.link = s.link := rfl
@[simp] theorem State.link_mapWorklist (s : State) (f : Worklist → Worklist) :
    (s.mapWorklist f).link = s.link := rfl
@[simp] theorem State.link_withdrawPlanner (s : State) : s.withdrawPlanner.link = s.link := rfl
@[simp] theorem State.store_clearReasons (s : State) : s.clearReasons.store = s.store := rfl
@[simp] theorem State.store_clearOwed (s : State) : s.clearOwed.store = s.store := rfl
@[simp] theorem State.store_setCycle (s : State) (st : CycleState) : (s.setCycle st).store = s.store := rfl
@[simp] theorem State.store_raiseTools (s : State) : s.raiseTools.store = s.store := rfl
@[simp] theorem State.store_lowerTool (s : State) (t : Tool) : (s.lowerTool t).store = s.store := by
  cases t <;> rfl
@[simp] theorem State.store_faultStop (s : State) (e : Option Entry) : (s.faultStop e).store = s.store := rfl
@[simp] theorem State.store_place (s : State) (e : Entry) : (s.place e).store = s.store := by
  unfold State.place; split <;> rfl
@[simp] theorem State.store_endEntry (s : State) : s.endEntry.store = s.store := rfl
@[simp] theorem State.store_releaseZones (s : State) : s.releaseZones.store = s.store := rfl
@[simp] theorem State.store_windowZonesOn (s : State) : s.windowZonesOn.store = s.store := rfl
@[simp] theorem State.store_setLine (s : State) (i : Fin 8) (l : Line) : (s.setLine i l).store = s.store := rfl
@[simp] theorem State.store_invalidate (s : State) : s.invalidate.store = s.store := rfl
@[simp] theorem State.store_mapWorklist (s : State) (f : Worklist → Worklist) :
    (s.mapWorklist f).store = s.store := rfl
@[simp] theorem State.store_withdrawPlanner (s : State) : s.withdrawPlanner.store = s.store := rfl
@[simp] theorem State.nest_clearReasons (s : State) : s.clearReasons.nest = s.nest := rfl
@[simp] theorem State.nest_clearOwed (s : State) : s.clearOwed.nest = s.nest := rfl
@[simp] theorem State.nest_setCycle (s : State) (st : CycleState) : (s.setCycle st).nest = s.nest := rfl
@[simp] theorem State.nest_raiseTools (s : State) : s.raiseTools.nest = s.nest := rfl
@[simp] theorem State.nest_lowerTool (s : State) (t : Tool) : (s.lowerTool t).nest = s.nest := by
  cases t <;> rfl
@[simp] theorem State.nest_faultStop (s : State) (e : Option Entry) : (s.faultStop e).nest = s.nest := rfl
@[simp] theorem State.nest_place (s : State) (e : Entry) : (s.place e).nest = s.nest := by
  unfold State.place; split <;> rfl
@[simp] theorem State.nest_endEntry (s : State) : s.endEntry.nest = s.nest := rfl
@[simp] theorem State.nest_releaseZones (s : State) : s.releaseZones.nest = s.nest := rfl
@[simp] theorem State.nest_windowZonesOn (s : State) : s.windowZonesOn.nest = s.nest := rfl
@[simp] theorem State.nest_setLine (s : State) (i : Fin 8) (l : Line) : (s.setLine i l).nest = s.nest := rfl
@[simp] theorem State.nest_invalidate (s : State) : s.invalidate.nest = s.nest := rfl
@[simp] theorem State.nest_mapWorklist (s : State) (f : Worklist → Worklist) :
    (s.mapWorklist f).nest = s.nest := rfl
@[simp] theorem State.nest_withdrawPlanner (s : State) : s.withdrawPlanner.nest = s.nest := rfl
@[simp] theorem State.marks_clearReasons (s : State) : s.clearReasons.marks = s.marks := rfl
@[simp] theorem State.marks_clearOwed (s : State) : s.clearOwed.marks = s.marks := rfl
@[simp] theorem State.marks_setCycle (s : State) (st : CycleState) : (s.setCycle st).marks = s.marks := rfl
@[simp] theorem State.marks_raiseTools (s : State) : s.raiseTools.marks = s.marks := rfl
@[simp] theorem State.marks_lowerTool (s : State) (t : Tool) : (s.lowerTool t).marks = s.marks := by
  cases t <;> rfl
@[simp] theorem State.marks_faultStop (s : State) (e : Option Entry) : (s.faultStop e).marks = s.marks := rfl
@[simp] theorem State.marks_place (s : State) (e : Entry) : (s.place e).marks = s.marks := by
  unfold State.place; split <;> rfl
@[simp] theorem State.marks_endEntry (s : State) : s.endEntry.marks = s.marks := rfl
@[simp] theorem State.marks_releaseZones (s : State) : s.releaseZones.marks = s.marks := rfl
@[simp] theorem State.marks_windowZonesOn (s : State) : s.windowZonesOn.marks = s.marks := rfl
@[simp] theorem State.marks_setLine (s : State) (i : Fin 8) (l : Line) : (s.setLine i l).marks = s.marks := rfl
@[simp] theorem State.marks_mapWorklist (s : State) (f : Worklist → Worklist) :
    (s.mapWorklist f).marks = s.marks := rfl
@[simp] theorem State.marks_withdrawPlanner (s : State) : s.withdrawPlanner.marks = s.marks := rfl
@[simp] theorem State.plan_clearReasons (s : State) : s.clearReasons.plan = s.plan := rfl
@[simp] theorem State.plan_clearOwed (s : State) : s.clearOwed.plan = s.plan := rfl
@[simp] theorem State.plan_setCycle (s : State) (st : CycleState) : (s.setCycle st).plan = s.plan := rfl
@[simp] theorem State.plan_raiseTools (s : State) : s.raiseTools.plan = s.plan := rfl
@[simp] theorem State.plan_lowerTool (s : State) (t : Tool) : (s.lowerTool t).plan = s.plan := by
  cases t <;> rfl
@[simp] theorem State.plan_faultStop (s : State) (e : Option Entry) : (s.faultStop e).plan = s.plan := rfl
@[simp] theorem State.plan_place (s : State) (e : Entry) : (s.place e).plan = s.plan := by
  unfold State.place; split <;> rfl
@[simp] theorem State.plan_endEntry (s : State) : s.endEntry.plan = s.plan := rfl
@[simp] theorem State.plan_releaseZones (s : State) : s.releaseZones.plan = s.plan := rfl
@[simp] theorem State.plan_windowZonesOn (s : State) : s.windowZonesOn.plan = s.plan := rfl
@[simp] theorem State.plan_setLine (s : State) (i : Fin 8) (l : Line) : (s.setLine i l).plan = s.plan := rfl
@[simp] theorem State.plan_invalidate (s : State) : s.invalidate.plan = s.plan := rfl
@[simp] theorem State.cycle_raiseTools (s : State) : s.raiseTools.cycle = s.cycle := rfl
@[simp] theorem State.cycle_lowerTool (s : State) (t : Tool) : (s.lowerTool t).cycle = s.cycle := by
  cases t <;> rfl
@[simp] theorem State.cycle_faultStop (s : State) (e : Option Entry) : (s.faultStop e).cycle = s.cycle := rfl
@[simp] theorem State.cycle_place (s : State) (e : Entry) : (s.place e).cycle = s.cycle := by
  unfold State.place; split <;> rfl
@[simp] theorem State.cycle_endEntry (s : State) : s.endEntry.cycle = s.cycle := rfl
@[simp] theorem State.cycle_releaseZones (s : State) : s.releaseZones.cycle = s.cycle := rfl
@[simp] theorem State.cycle_windowZonesOn (s : State) : s.windowZonesOn.cycle = s.cycle := rfl
@[simp] theorem State.cycle_setLine (s : State) (i : Fin 8) (l : Line) : (s.setLine i l).cycle = s.cycle := rfl
@[simp] theorem State.cycle_invalidate (s : State) : s.invalidate.cycle = s.cycle := rfl
@[simp] theorem State.cycle_mapWorklist (s : State) (f : Worklist → Worklist) :
    (s.mapWorklist f).cycle = s.cycle := rfl
@[simp] theorem State.cycle_withdrawPlanner (s : State) : s.withdrawPlanner.cycle = s.cycle := rfl
@[simp] theorem State.motion_clearReasons (s : State) : s.clearReasons.motion = s.motion := rfl
@[simp] theorem State.motion_clearOwed (s : State) : s.clearOwed.motion = s.motion := rfl
@[simp] theorem State.motion_setCycle (s : State) (st : CycleState) : (s.setCycle st).motion = s.motion := rfl
@[simp] theorem State.motion_releaseZones (s : State) : s.releaseZones.motion = s.motion := rfl
@[simp] theorem State.motion_windowZonesOn (s : State) : s.windowZonesOn.motion = s.motion := rfl
@[simp] theorem State.motion_setLine (s : State) (i : Fin 8) (l : Line) : (s.setLine i l).motion = s.motion := rfl
@[simp] theorem State.motion_invalidate (s : State) : s.invalidate.motion = s.motion := rfl
@[simp] theorem State.motion_mapWorklist (s : State) (f : Worklist → Worklist) :
    (s.mapWorklist f).motion = s.motion := rfl
@[simp] theorem State.bed_clearReasons (s : State) : s.clearReasons.bed = s.bed := rfl
@[simp] theorem State.bed_clearOwed (s : State) : s.clearOwed.bed = s.bed := rfl
@[simp] theorem State.bed_place (s : State) (e : Entry) : (s.place e).bed = s.bed := by
  unfold State.place; split <;> rfl
@[simp] theorem State.bed_endEntry (s : State) : s.endEntry.bed = s.bed := rfl
@[simp] theorem State.bed_invalidate (s : State) : s.invalidate.bed = s.bed := rfl
@[simp] theorem State.bed_mapWorklist (s : State) (f : Worklist → Worklist) :
    (s.mapWorklist f).bed = s.bed := rfl
@[simp] theorem State.bed_withdrawPlanner (s : State) : s.withdrawPlanner.bed = s.bed := rfl

end Sys2Proof.Machine
end

