-- ==== Sys2Proof/Laws/Kept.lean ====
section
/-! SUPPORT. What an effect inside a command leaves as it was. A view that is blind to the notices formed, to the marks,
plan, cycle, motion and bed, and to the panel records but for their chains, is unchanged by every shared operation:
the queues of the link port, the nest unit, the contour store and the free blocks are such views. -/

namespace Sys2Proof.Machine

/-- A view of the state that sees no notice formed, none of the five job units, and of a slot its chain alone. -/
structure Blind {α : Type} (P : State → α) : Prop where
  emit : ∀ s n, P (s.emit n) = P s
  marks : ∀ s x, P (s.withMarks x) = P s
  plan : ∀ s x, P (s.withPlan x) = P s
  cycle : ∀ s x, P (s.withCycle x) = P s
  motion : ∀ s x, P (s.withMotion x) = P s
  bed : ∀ s x, P (s.withBed x) = P s
  panels : ∀ s (t : Table Panel 96), (∀ i, (t.get i).chain = (s.store.panels.get i).chain) →
    P (s.withStore { s.store with panels := t }) = P s

theorem blind_pending : Blind State.pending :=
  ⟨fun _ _ => rfl, fun _ _ => rfl, fun _ _ => rfl, fun _ _ => rfl, fun _ _ => rfl, fun _ _ => rfl, fun _ _ _ => rfl⟩

theorem blind_nest : Blind State.nest :=
  ⟨fun _ _ => rfl, fun _ _ => rfl, fun _ _ => rfl, fun _ _ => rfl, fun _ _ => rfl, fun _ _ => rfl, fun _ _ _ => rfl⟩

theorem blind_contour : Blind fun s => s.store.contour :=
  ⟨fun _ _ => rfl, fun _ _ => rfl, fun _ _ => rfl, fun _ _ => rfl, fun _ _ => rfl, fun _ _ => rfl, fun _ _ _ => rfl⟩

theorem blind_free : Blind fun s => s.store.free :=
  ⟨fun _ _ => rfl, fun _ _ => rfl, fun _ _ => rfl, fun _ _ => rfl, fun _ _ => rfl, fun _ _ => rfl, fun _ _ _ => rfl⟩

theorem blind_chain (i : Slot) : Blind fun s => (s.panel i).chain :=
  ⟨fun _ _ => rfl, fun _ _ => rfl, fun _ _ => rfl, fun _ _ => rfl, fun _ _ => rfl, fun _ _ => rfl, fun _ _ h => h i⟩

theorem blind_loader : Blind fun s => s.store.loader :=
  ⟨fun _ _ => rfl, fun _ _ => rfl, fun _ _ => rfl, fun _ _ => rfl, fun _ _ => rfl, fun _ _ => rfl, fun _ _ _ => rfl⟩

/-- The link port without the notices formed inside the command. -/
def State.settledLink (s : State) : LinkPort := { s.link with formed := [] }

theorem blind_settledLink : Blind State.settledLink :=
  ⟨fun _ _ => rfl, fun _ _ => rfl, fun _ _ => rfl, fun _ _ => rfl, fun _ _ => rfl, fun _ _ => rfl, fun _ _ _ => rfl⟩

theorem blind_outbound : Blind fun s => s.link.outbound :=
  ⟨fun _ _ => rfl, fun _ _ => rfl, fun _ _ => rfl, fun _ _ => rfl, fun _ _ => rfl, fun _ _ => rfl, fun _ _ _ => rfl⟩

theorem blind_inbound : Blind fun s => s.link.inbound :=
  ⟨fun _ _ => rfl, fun _ _ => rfl, fun _ _ => rfl, fun _ _ => rfl, fun _ _ => rfl, fun _ _ => rfl, fun _ _ _ => rfl⟩

theorem Table.get_set_self {α : Type} {n : Nat} (t : Table α n) (i : Fin n) (a : α) : (t.set i a).get i = a := by
  simp [Table.get, Table.set]

theorem Table.get_set_ne {α : Type} {n : Nat} (t : Table α n) {i j : Fin n} (a : α) (h : i ≠ j) :
    (t.set i a).get j = t.get j := by
  have : i.val ≠ j.val := fun e => h (Fin.ext e)
  simp [Table.get, Table.set, this]

theorem Table.get_ofFn {α : Type} {n : Nat} (f : Fin n → α) (i : Fin n) : (Table.ofFn f).get i = f i := by
  simp [Table.get, Table.ofFn]

theorem Table.get_map {α : Type} {n : Nat} (t : Table α n) (f : Fin n → α → α) (i : Fin n) :
    (t.map f).get i = f i (t.get i) := Table.get_ofFn _ i

theorem Table.get_fill {α : Type} (n : Nat) (a : α) (i : Fin n) : (Table.fill n a).get i = a := by
  simp [Table.get, Table.fill]

section
variable {α : Type} {P : State → α} (h : Blind P)
include h

theorem Blind.setPanel (s : State) (i : Slot) (p : Panel) (hp : p.chain = (s.panel i).chain) :
    P (s.setPanel i p) = P s := by
  refine h.panels s _ fun j => ?_
  by_cases e : i = j
  · subst e; rw [Table.get_set_self]; exact hp
  · rw [Table.get_set_ne _ _ e]

/-! ### Outputs, queue and cycle state -/

theorem Blind.setCycle (s : State) (st : CycleState) : P (s.setCycle st) = P s := (h.bed _ _).trans (h.cycle _ _)
theorem Blind.clearReasons (s : State) : P s.clearReasons = P s := h.cycle _ _
theorem Blind.clearOwed (s : State) : P s.clearOwed = P s := h.cycle _ _
theorem Blind.raiseTools (s : State) : P s.raiseTools = P s := (h.bed _ _).trans (h.motion _ _)
theorem Blind.releaseZones (s : State) : P s.releaseZones = P s := h.bed _ _
theorem Blind.windowZonesOn (s : State) : P s.windowZonesOn = P s := h.bed _ _
theorem Blind.invalidate (s : State) : P s.invalidate = P s := h.marks _ _
theorem Blind.mapWorklist (s : State) (f : Worklist → Worklist) : P (s.mapWorklist f) = P s := h.plan _ _
theorem Blind.withdrawPlanner (s : State) : P s.withdrawPlanner = P s := (h.plan _ _).trans (h.motion _ _)
theorem Blind.endEntry (s : State) : P s.endEntry = P s := h.motion _ _
theorem Blind.faultStop (s : State) (e : Option Entry) : P (s.faultStop e) = P s := (h.bed _ _).trans (h.motion _ _)
theorem Blind.loseHome (s : State) : P s.loseHome = P s := h.motion _ _
theorem Blind.startExecuting (s : State) (v : Option Nat) : P (s.startExecuting v) = P s := h.motion _ _
theorem Blind.openWindow (s : State) (a : Option Int) : P (s.openWindow a) = P s := h.marks _ _
theorem Blind.setLine (s : State) (i : Fin 8) (l : Line) : P (s.setLine i l) = P s := h.bed _ _

theorem Blind.lowerTool (s : State) (t : Tool) : P (s.lowerTool t) = P s := by
  cases t <;> exact (h.bed _ _).trans (h.motion _ _)

theorem Blind.place (s : State) (e : Entry) : P (s.place e) = P s := by
  unfold State.place; split
  · exact h.motion _ _
  · rfl

theorem Blind.restTools (s : State) : P s.restTools = P s := by
  unfold State.restTools; split
  · exact h.raiseTools s
  · rfl

theorem Blind.toReadying (s : State) : P s.toReadying = P s := (h.cycle _ _).trans (h.setCycle _ _)

/-! ### Faults, suspensions, holds, stops -/

theorem Blind.writeOwed (s : State) (f : Option (Int × Int)) : P (s.writeOwed f) = P s := by
  unfold State.writeOwed; split
  · rfl
  · exact h.cycle _ _

theorem Blind.faultEntry (s : State) (k : FaultKind) (d : FaultDetail) (e : Option Entry) :
    P (s.faultEntry k d e) = P s := by
  unfold State.faultEntry
  extract_lets record feed a b c d2 e2
  have kb : P b = P s := (h.bed _ _).trans ((h.mapWorklist _ _).trans ((h.writeOwed _ _).trans (h.faultStop _ _)))
  have kc : P c = P s := by
    unfold c
    split
    · exact (h.invalidate b).trans kb
    · exact kb
  have kd : P d2 = P s := by
    unfold d2
    split
    · exact (h.loseHome c).trans kc
    · exact kc
  exact (h.emit _ _).trans ((h.cycle _ _).trans ((h.setCycle _ _).trans ((h.clearReasons _).trans kd)))

theorem Blind.followOnFault (s : State) (k : FaultKind) (r : FaultRecord) : P (s.followOnFault k r) = P s := by
  unfold State.followOnFault
  dsimp only
  split <;> simp only [h.loseHome, h.bed, h.cycle]

theorem Blind.raiseFault (s : State) (k : FaultKind) (d : FaultDetail) (e : Option Entry) :
    P (s.raiseFault k d e) = P s := by
  unfold State.raiseFault
  split
  · exact h.faultEntry s k d e
  · exact h.followOnFault s k _

theorem Blind.takeSuspension (s : State) (r : ResumePoint) : P (s.takeSuspension r) = P s := by
  unfold State.takeSuspension
  dsimp only
  rw [h.emit, h.cycle, h.setCycle, h.clearReasons, h.raiseTools, h.withdrawPlanner]

theorem Blind.enterHeld (s : State) (r : HoldReason) (d : List Byte) : P (s.enterHeld r d) = P s := by
  unfold State.enterHeld
  dsimp only
  rw [h.emit, h.cycle, h.setCycle, h.clearReasons, h.raiseTools, h.withdrawPlanner]

theorem Blind.stopEffect (s : State) : P s.stopEffect = P s := by
  unfold State.stopEffect
  dsimp only
  rw [h.setCycle, h.cycle, h.clearReasons, h.invalidate, h.releaseZones, h.raiseTools, h.withdrawPlanner]

theorem Blind.advancePointer (s : State) (n : Nat) : P (s.advancePointer n) = P s := by
  unfold State.advancePointer
  extract_lets next
  split
  · rfl
  · rw [h.marks, h.plan, h.cycle]

/-! ### Taking entries -/

theorem Blind.completeHome (s : State) : P s.completeHome = P s := by
  unfold State.completeHome
  dsimp only
  rw [h.restTools]
  split <;> simp only [h.setCycle, h.motion, h.endEntry]

theorem Blind.settleHome (s : State) : P s.settleHome = P s := by
  unfold State.settleHome; split
  · exact h.completeHome s
  · rfl

theorem Blind.startFeed (s : State) (d : Nat) : P (s.startFeed d) = P s := by
  unfold State.startFeed
  dsimp only
  rw [h.bed, h.motion, h.releaseZones, h.raiseTools, h.startExecuting]

theorem Blind.startHome (s : State) : P s.startHome = P s := by
  unfold State.startHome
  dsimp only
  rw [h.motion, h.raiseTools, h.startExecuting]

theorem Blind.takeEntry (s : State) (e : Entry) : P (s.takeEntry e) = P s := by
  unfold State.takeEntry
  split
  · exact h.raiseFault ..
  · split
    · exact h.raiseFault ..
    · split
      · split
        · exact h.raiseFault ..
        · exact h.startFeed ..
      · rw [h.settleHome, h.startHome]
      · rw [h.raiseTools, h.startExecuting]
      · rw [h.raiseTools, h.startExecuting]
      · rw [h.lowerTool, h.startExecuting]

theorem Blind.takeEntries (n : Nat) (s : State) : P (s.takeEntries n) = P s := by
  induction n generalizing s with
  | zero => rfl
  | succ n ih =>
    unfold State.takeEntries
    split
    · rfl
    · split
      · rfl
      · dsimp only
        split
        · rw [ih, h.takeEntry]
        · exact h.takeEntry ..

/-! ### The planner -/

theorem Blind.buildWorklist (s : State) : P s.buildWorklist.1 = P s := by
  unfold State.buildWorklist
  extract_lets k items w
  split
  · exact h.plan _ _
  · exact (h.emit _ _).trans (h.plan _ _)

theorem Blind.planEnter (s : State) : P s.planEnter.1 = P s := by
  unfold State.planEnter
  split
  · split
    · exact (h.emit _ _).trans (h.plan _ _)
    · exact h.buildWorklist s
  · exact h.buildWorklist s

theorem Blind.testItemStart (s : State) (w : Worklist) (r : ItemStart) : P (s.testItemStart w r).1 = P s := by
  unfold State.testItemStart
  extract_lets notify halt s1 s2
  refine (h.cycle _ _).trans ?_
  show P s1 = P s
  unfold s1
  split
  · rfl
  · exact h.emit _ _

theorem Blind.issueTravel (s : State) (w : Worklist) (it : Item) : P (s.issueTravel w it).1 = P s := by
  unfold State.issueTravel
  split
  · exact h.plan _ _
  · exact (h.place _ _).trans (h.plan _ _)

theorem Blind.issueCut (s : State) (w : Worklist) (i : Nat) (it : Item) : P (s.issueCut w i it).1 = P s := by
  unfold State.issueCut
  extract_lets pass n
  split
  · exact h.plan _ _
  · exact (h.place _ _).trans (h.plan _ _)

theorem Blind.issueItem (s : State) (w : Worklist) (i : Nat) (it : Item) : P (s.issueItem w i it).1 = P s := by
  unfold State.issueItem
  split
  · split
    · extract_lets r
      have k := h.testItemStart s w r
      split <;> rename_i t e <;> rw [e] at k
      · exact (h.issueTravel t _ it).trans k
      · exact (h.plan _ _).trans k
    · exact h.issueTravel s _ it
  · exact h.issueCut s w i it

theorem Blind.issueOne (s : State) : P s.issueOne.1 = P s := by
  unfold State.issueOne
  split
  · rfl
  · extract_lets w
    split
    · exact h.plan _ _
    · split
      · rfl
      · exact h.issueItem s _ _ _

theorem Blind.issueLoop (n : Nat) (s : State) : P (s.issueLoop n).1 = P s := by
  induction n generalizing s with
  | zero => rfl
  | succ n ih =>
    have k := h.issueOne s
    unfold State.issueLoop
    split <;> rename_i t e <;> rw [e] at k
    · exact (ih t).trans k
    · exact k
    · exact k
    · exact k

theorem Blind.issue (s : State) : P s.issue.1 = P s := by
  unfold State.issue
  split
  · rfl
  · split
    · rfl
    · split
      · rfl
      · exact h.issueLoop _ s

theorem Blind.takeCut (s : State) (r : CutRef) : P (s.takeCut r).1 = P s := by
  unfold State.takeCut
  split
  · rfl
  · split
    · rfl
    · exact h.plan _ _

theorem Blind.firstCut (s : State) (i : Slot) : P (s.firstCut i) = P s := by
  unfold State.firstCut
  extract_lets p
  split
  · exact h.setPanel s i _ rfl
  · rfl

/-! ### The course of a run -/

theorem Blind.foldEmit (k : Nat) (l : List Slot) (s : State) :
    P (l.foldl (fun t i => t.emit (panelDoneNotice i k)) s) = P s := by
  induction l generalizing s with
  | nil => rfl
  | cons i l ih => exact (ih _).trans (h.emit _ _)

omit h in
theorem Panel.chain_atWindowDone (lp : LayoutParams) (k : Nat) (p : Panel) : (p.atWindowDone lp k).chain = p.chain := by
  unfold Panel.atWindowDone
  split
  · split
    · split <;> rfl
    · rfl
  · rfl

theorem Blind.completeWindow (s : State) : P s.completeWindow.1 = P s := by
  unfold State.completeWindow
  extract_lets k lp already s1 s2 done s3 s4
  have k1 : P s3 = P s := by
    unfold s3
    split
    · rfl
    · refine (h.foldEmit _ _ _).trans ((h.mapWorklist _ _).trans (h.panels s _ fun i => ?_))
      rw [Table.get_map]
      exact Panel.chain_atWindowDone ..
  split
  · exact (h.emit _ _).trans k1
  · exact (h.emit _ _).trans ((h.emit _ _).trans k1)

theorem Blind.placeFeed (s : State) (d : Nat) (j : FeedJob) : P (s.placeFeed d j) = P s := by
  unfold State.placeFeed
  extract_lets t
  exact (h.place _ _).trans ((h.cycle _ _).trans ((h.releaseZones _).trans (h.setCycle _ _)))

theorem Blind.runFeed (s : State) : P s.runFeed = P s := h.placeFeed ..

theorem Blind.endRun (s : State) : P s.endRun = P s := by
  unfold State.endRun
  extract_lets t
  exact (h.setCycle _ _).trans ((h.cycle _ _).trans ((h.clearReasons _).trans (h.releaseZones _)))

theorem Blind.windowDone (s : State) : P s.windowDone = P s := by
  have k := h.completeWindow s
  unfold State.windowDone
  split <;> rename_i t e <;> rw [e] at k
  · split
    · exact (h.stopEffect t).trans k
    · exact (h.endRun t).trans k
  · split
    · exact (h.takeSuspension t _).trans k
    · split
      · exact (h.stopEffect t).trans k
      · exact (h.runFeed t).trans k

theorem Blind.suspendIfDrained (s : State) : P s.suspendIfDrained = P s := by
  unfold State.suspendIfDrained
  split
  · exact h.takeSuspension s _
  · rfl

theorem Blind.issueWith (f : State → State) (hf : ∀ s, P (f s) = P s) (s : State) : P (s.issueWith f) = P s := by
  unfold State.issueWith
  extract_lets t
  have k : P t.issue.1 = P s := (h.issue t).trans (h.mapWorklist _ _)
  split
  rename_i u stop e
  rw [e] at k
  split
  · exact (h.windowDone u).trans k
  · split
    · exact (hf u).trans k
    · split
      · exact (h.suspendIfDrained u).trans k
      · exact k

theorem Blind.checks (f : State → State) (hf : ∀ s, P (f s) = P s) (s : State) : P (s.checks f) = P s := by
  unfold State.checks
  split
  · exact h.enterHeld ..
  · split
    · exact (hf _).trans (h.setCycle _ _)
    · split
      · exact h.enterHeld ..
      · extract_lets t
        split
        · exact (h.enterHeld ..).trans (h.marks _ _)
        · exact (hf _).trans ((h.setCycle _ _).trans (h.marks _ _))

theorem Blind.recordSearch (s : State) (row : Nat) (side : Side) (p : Option BedPos) :
    P (s.recordSearch row side p) = P s := by
  unfold State.recordSearch
  extract_lets mu
  split
  · exact h.marks _ _
  · split
    · exact h.marks _ _
    · split <;> exact h.marks _ _

theorem Blind.afterSearch (m : Option (Nat × Side)) (f : State → State) (hf : ∀ s, P (f s) = P s) (s : State) :
    P (s.afterSearch m f) = P s := by
  unfold State.afterSearch
  split
  · rfl
  · split
    · exact h.stopEffect s
    · split
      · exact h.enterHeld ..
      · split
        · exact h.takeSuspension s _
        · exact hf s

theorem Blind.searchFrom (f : State → State) (hf : ∀ s, P (f s) = P s) (n : Nat) (s : State) :
    P (State.searchFrom f n s) = P s := by
  induction n generalizing s with
  | zero => rfl
  | succ n ih =>
    unfold State.searchFrom
    split
    · rfl
    · split
      · exact h.checks f hf s
      · split
        · rfl
        · extract_lets centre tried s2
          split
          · split
            · exact (h.place _ _).trans (h.marks _ _)
            · rfl
          · exact (h.afterSearch _ _ ih _).trans ((h.recordSearch ..).trans (h.marks _ _))

theorem Blind.reopen (s : State) : P s.reopen = P s :=
  (h.searchFrom _ (h.issueWith id fun _ => rfl) 3 _).trans ((h.toReadying _).trans (h.openWindow _ _))

theorem Blind.issueNow (s : State) : P s.issueNow = P s := h.issueWith _ h.reopen s

theorem Blind.searchNow (s : State) : P s.searchNow = P s := h.searchFrom _ h.issueNow 3 s

theorem Blind.continueReadying (s : State) : P s.continueReadying = P s :=
  (h.searchNow _).trans ((h.toReadying _).trans (h.marks _ _))

theorem Blind.settleExpires (s : State) : P s.settleExpires = P s := by
  unfold State.settleExpires
  extract_lets t
  split
  · split
    · exact (h.raiseFault ..).trans (h.cycle _ _)
    · split
      · exact (h.takeSuspension ..).trans (h.cycle _ _)
      · exact (h.searchNow _).trans ((h.toReadying _).trans (h.cycle _ _))
  · exact h.cycle _ _

theorem Blind.beginSettle (s : State) : P s.beginSettle = P s := by
  unfold State.beginSettle
  extract_lets t c u
  have k : P u = P s := (h.cycle _ _).trans ((h.windowZonesOn _).trans (h.setCycle _ _))
  split
  · exact (h.settleExpires u).trans k
  · exact k

theorem Blind.enterWindow (a : Option Int) (s : State) : P (s.enterWindow a) = P s := by
  have k := h.planEnter s
  unfold State.enterWindow
  split <;> rename_i t n e <;> rw [e] at k
  · extract_lets u
    split
    · exact (h.takeSuspension ..).trans ((h.windowZonesOn _).trans ((h.openWindow _ _).trans k))
    · exact (h.beginSettle _).trans ((h.openWindow _ _).trans k)
  · exact (h.enterHeld ..).trans ((h.openWindow _ _).trans k)
  · exact (h.windowDone t).trans k

theorem Blind.startRun (s : State) : P s.startRun = P s := by
  unfold State.startRun
  split
  · split
    · exact h.placeFeed ..
    · exact (h.enterWindow none _).trans ((h.clearOwed _).trans (h.advancePointer s _))
  · exact h.enterWindow none s

theorem Blind.resumeSuspended (s : State) : P s.resumeSuspended = P s := by
  unfold State.resumeSuspended
  split
  · split
    · exact h.beginSettle s
    · exact h.continueReadying s
    · exact h.runFeed s
  · exact h.continueReadying s

theorem Blind.resumePlanFull (s : State) : P s.resumePlanFull = P s := by
  unfold State.resumePlanFull
  extract_lets built
  have k : P built.1 = P s := by
    unfold built
    split
    · rfl
    · exact h.buildWorklist s
  clear_value built
  split <;> rename_i t n <;> dsimp only at k
  · exact (h.beginSettle t).trans k
  · exact (h.windowDone t).trans k
  · exact (h.enterHeld ..).trans k

theorem Blind.resumeHeld (s : State) : P s.resumeHeld = P s := by
  unfold State.resumeHeld
  split
  · exact h.startRun s
  · exact h.resumePlanFull s
  all_goals exact h.continueReadying s

theorem Blind.pedal (s : State) : P s.pedal = P s := by
  unfold State.pedal
  split
  · exact h.resumeSuspended s
  · split
    · exact h.resumeHeld s
    · rfl

/-! ### Completions -/

theorem Blind.cutSafePoint (s : State) : P s.cutSafePoint = P s := by
  unfold State.cutSafePoint
  split
  · rfl
  · split
    · exact h.stopEffect s
    · split
      · exact h.takeSuspension s _
      · exact h.suspendIfDrained s

theorem Blind.endTestCut (s : State) : P s.endTestCut = P s := by
  unfold State.endTestCut
  extract_lets t
  split
  · exact (h.cycle _ _).trans ((h.setCycle _ _).trans (h.raiseTools s))
  · exact (h.setCycle _ _).trans ((h.cycle _ _).trans (h.raiseTools s))

theorem Blind.testCutCompletion (s : State) : P s.testCutCompletion = P s := by
  unfold State.testCutCompletion
  split
  · split
    · exact h.endTestCut s
    · exact h.cycle _ _
  · rfl

theorem Blind.jobDone (j : FeedJob) (s : State) : P (s.jobDone j) = P s := by
  unfold State.jobDone
  extract_lets t
  split
  · exact (h.cycle _ _).trans (h.advancePointer _ _)
  · exact (h.clearOwed _).trans (h.advancePointer _ _)

theorem Blind.feedDelivered (n : Int) (s : State) : P (s.feedDelivered n) = P s := by
  unfold State.feedDelivered
  split
  · rfl
  · rename_i job _
    extract_lets t
    have k : P t = P s := h.jobDone job s
    split
    · exact k
    · split
      · exact (h.setCycle t _).trans k
      · split
        · exact (h.stopEffect t).trans k
        · exact (h.enterWindow _ t).trans k

theorem Blind.feedCompletes (s : State) : P s.feedCompletes = P s :=
  (h.restTools _).trans ((h.feedDelivered _ _).trans (h.endEntry _))

theorem Blind.searchCompletes (p : Option BedPos) (s : State) : P (s.searchCompletes p) = P s := by
  unfold State.searchCompletes
  extract_lets t u
  refine (h.restTools _).trans ?_
  unfold u
  split
  · exact (h.afterSearch _ _ h.searchNow _).trans ((h.recordSearch ..).trans (h.endEntry _))
  · exact (h.afterSearch _ _ h.searchNow _).trans (h.endEntry _)

theorem Blind.recomputeRows (s : State) : P s.recomputeRows = P s := by
  unfold State.recomputeRows
  extract_lets had t
  split
  · exact (h.issueNow _).trans ((h.setCycle _ _).trans (h.marks _ _))
  · exact h.marks _ _

theorem Blind.plannerCompletion (r : Option CutRef) (s : State) : P (s.plannerCompletion r) = P s := by
  unfold State.plannerCompletion
  split
  · rfl
  · split
    rename_i t cut e
    have k1 : P t = P s := by
      have k : P (match r with
          | some r => s.takeCut r
          | none => (s, none)).1 = P s := by
        split
        · exact h.takeCut s _
        · rfl
      have e' := congrArg Prod.fst e
      exact (congrArg P e'.symm).trans k
    have k2 := (h.issue t).trans k1
    split
    rename_i u stop e2
    rw [e2] at k2
    extract_lets v
    have k3 : P v = P s := by
      unfold v
      split
      · exact (h.firstCut u _).trans k2
      · exact k2
    split
    · exact (h.windowDone v).trans k3
    · split
      · exact (h.reopen v).trans k3
      · exact (h.cutSafePoint v).trans k3

theorem Blind.moveCompletes (s : State) : P s.moveCompletes = P s := by
  unfold State.moveCompletes
  split
  · extract_lets a m b c
    refine (h.restTools _).trans ?_
    have k : P b = P s := (h.motion _ _).trans (h.endEntry _)
    unfold c
    split
    · exact (h.plannerCompletion none b).trans k
    · exact k
    · exact k
  · extract_lets a m b c
    refine (h.restTools _).trans ?_
    have k : P b = P s := (h.motion _ _).trans (h.endEntry _)
    unfold c
    split
    · exact (h.plannerCompletion _ b).trans k
    · exact (h.testCutCompletion b).trans k
  all_goals rfl

end

end Sys2Proof.Machine
end

