-- ==== Sys2Proof/Laws/Requests.lean ====
section
/-! SUPPORT. How a request row and the close of a command act: with room and an allowed length a request row is its
delivery and the close; a settled motion unit takes nothing at the close; with no notice formed the flush changes
nothing. -/

namespace Sys2Proof.Machine

/-- With a free outbound place and an allowed payload, a request row is its delivery, then the close. -/
theorem request_delivers {i : Instr} {run : State → State} {s : State}
    (room : s.link.outbound.length < Config.outboundPlaces) (len : i.wellFormed = true) :
    request i run s = .next (run s.begin).close := by
  unfold request State.deliverChecked
  rw [if_pos room, if_pos len]

/-- With no free outbound place the record waits in the inbound queue. -/
theorem request_waits {i : Instr} {run : State → State} {s : State}
    (full : Config.outboundPlaces ≤ s.link.outbound.length) : request i run s = .next (s.begin.waits i) := by
  unfold request
  rw [if_neg (Nat.not_lt.mpr full)]

/-- A payload length that the kind does not allow is answered BAD_LENGTH and nothing else happens. -/
theorem request_badLength {i : Instr} {run : State → State} {s : State} {kind tag : Byte} {payload : List Byte}
    (room : s.link.outbound.length < Config.outboundPlaces) (len : i.wellFormed = false)
    (fields : requestFields i = some (kind, tag, payload)) :
    request i run s = .next (s.begin.queueReply kind tag .badLength [] none).close := by
  unfold request State.deliverChecked
  rw [if_pos room, len, fields]
  rfl

/-- A motion unit that executes, or has nothing queued, takes nothing. -/
theorem takeEntries_settled {s : State} (h : s.motionSettled = true) (n : Nat) : s.takeEntries n = s := by
  unfold State.motionSettled at h
  cases n with
  | zero => rfl
  | succ n =>
    unfold State.takeEntries
    cases e : s.motion.executing with
    | true => rfl
    | false =>
      rw [e] at h
      have q : s.motion.queue = [] := by simpa using h
      rw [q]
      rfl

/-- The close of a command whose motion unit is settled only queues the notices formed. -/
theorem close_settled {s : State} (h : s.motionSettled = true) : s.close = s.flush := by
  unfold State.close
  rw [takeEntries_settled h]

/-- With no notice formed, the flush changes nothing. -/
theorem flush_quiet {s : State} (h : s.link.formed = []) : s.flush = s := by
  unfold State.flush State.withLink
  rw [h]
  cases s with
  | mk p l a b c d e f g =>
    cases l
    cases h
    rfl

/-- A command that begins with no notice formed begins in the state as it stands. -/
theorem begin_quiet {s : State} (h : s.link.formed = []) : s.begin = s := by
  unfold State.begin State.withLink
  cases s with
  | mk p l a b c d e f g =>
    cases l
    cases h
    rfl

/-- A notice takes at most one place, and never one of the last two. -/
theorem length_queueNotice_le (l : LinkPort) (n : OutRecord) :
    (l.queueNotice n).outbound.length ≤ max l.outbound.length (Config.outboundPlaces - 2) := by
  unfold LinkPort.queueNotice
  split
  · rename_i h
    simp only [List.length_append, List.length_singleton]
    have : Config.outboundPlaces = 24 := rfl
    omega
  · exact Nat.le_max_left ..

/-- The records that stand in the outbound queue stay in front when notices are queued. -/
theorem outbound_grows_queueNotice (l : LinkPort) (n : OutRecord) : l.outbound <+: (l.queueNotice n).outbound := by
  unfold LinkPort.queueNotice
  split
  · exact List.prefix_append ..
  · exact List.prefix_rfl

theorem length_foldNotice_le (ns : List OutRecord) (l : LinkPort) :
    (ns.foldl LinkPort.queueNotice l).outbound.length ≤ max l.outbound.length (Config.outboundPlaces - 2) := by
  induction ns generalizing l with
  | nil => exact Nat.le_max_left ..
  | cons n ns ih =>
    have a := ih (l.queueNotice n)
    have b := length_queueNotice_le l n
    simp only [List.foldl_cons]
    omega

theorem outbound_grows_foldNotice (ns : List OutRecord) (l : LinkPort) :
    l.outbound <+: (ns.foldl LinkPort.queueNotice l).outbound := by
  induction ns generalizing l with
  | nil => exact List.prefix_rfl
  | cons n ns ih => exact (outbound_grows_queueNotice l n).trans (ih _)

/-- The flush leaves the records queued in front, takes none of the last two places, and forms nothing. -/
theorem flush_outbound (s : State) : s.link.outbound <+: s.flush.link.outbound ∧
    s.flush.link.outbound.length ≤ max s.link.outbound.length (Config.outboundPlaces - 2) :=
  ⟨outbound_grows_foldNotice s.link.formed { s.link with formed := [] },
    length_foldNotice_le s.link.formed { s.link with formed := [] }⟩

theorem formed_queueNotice (l : LinkPort) (n : OutRecord) : (l.queueNotice n).formed = l.formed := by
  unfold LinkPort.queueNotice; split <;> rfl

theorem formed_foldNotice (ns : List OutRecord) (l : LinkPort) :
    (ns.foldl LinkPort.queueNotice l).formed = l.formed := by
  induction ns generalizing l with
  | nil => rfl
  | cons n ns ih => exact (ih _).trans (formed_queueNotice l n)

/-- After the close no notice stands formed. -/
theorem formed_close (s : State) : s.close.link.formed = [] := formed_foldNotice _ _

/-- A reply is queued behind what stands there; the dropped mark is cleared, and nothing else changes. -/
theorem outbound_queueReply (s : State) (k t : Byte) (st : Status) (d : List Byte) (r : Option (Fin 4)) :
    (s.queueReply k t st d r).link.outbound = s.link.outbound ++ [replyRecord k t st d r s] := rfl

/-- Queuing a reply leaves the motion unit as it is. -/
theorem motionSettled_queueReply (s : State) (k t : Byte) (st : Status) (d : List Byte) (r : Option (Fin 4)) :
    (s.queueReply k t st d r).motionSettled = s.motionSettled := rfl

/-- Queuing a reply leaves the notices formed as they are. -/
theorem formed_queueReply (s : State) (k t : Byte) (st : Status) (d : List Byte) (r : Option (Fin 4)) :
    (s.queueReply k t st d r).link.formed = s.link.formed := rfl

/-- A request taken between commands, whose action leaves the motion unit settled and forms no notice, is its action
and its reply. -/
theorem request_served {i : Instr} {k t : Byte} {act : State → Acted} {s : State} (h : s.ready)
    (wf : i.wellFormed = true) (settled : (act s).st.motionSettled = true) (quiet : (act s).st.link.formed = []) :
    request i (serve k t act) s =
      .next ((act s).st.queueReply k t (act s).status (act s).data (act s).rate) := by
  rw [request_delivers h.2 wf, begin_quiet h.1.2]
  show Host.Outcome.next ((act s).st.queueReply k t (act s).status (act s).data (act s).rate).close = _
  rw [close_settled ((motionSettled_queueReply ..).trans settled), flush_quiet ((formed_queueReply ..).trans quiet)]

/-- A request taken between commands, whose action is known, leaves the motion unit settled and forms no notice. -/
theorem request_answered {i : Instr} {k t : Byte} {act : State → Acted} {s : State} {a : Acted} (h : s.ready)
    (wf : i.wellFormed = true) (ha : act s = a) (settled : a.st.motionSettled = true) (quiet : a.st.link.formed = []) :
    request i (serve k t act) s = .next (a.st.queueReply k t a.status a.data a.rate) := by
  subst ha
  exact request_served h wf settled quiet

/-- Between commands the close changes nothing. -/
theorem close_rest (t : State) (h : t.atRest) : t.close = t := by rw [close_settled h.1, flush_quiet h.2]

/-- A fault empties the motion queue, so the close takes nothing and only queues the notices formed. -/
theorem close_emptied {t : State} (h : t.motion.queue = []) : t.close = t.flush := by
  unfold State.close
  rw [h]
  rfl

/-- A command that changes the link port alone closes without further effect. -/
theorem close_withLink {s : State} {l : LinkPort} (h : s.atRest) (quiet : l.formed = []) :
    (s.withLink l).close = s.withLink l := close_rest (s.withLink l) ⟨h.1, quiet⟩

end Sys2Proof.Machine
end

