-- ==== Sys2Proof/Laws/Faults.lean ====
section
/-! SUPPORT. What a fault entry (R145) leaves in each unit, said once. -/

namespace Sys2Proof.Machine

/-- The feed remainder and the windows owed that a fault entry writes (R92, R145 step 2). -/
def State.owedAtFault (taking : Option Entry) (s : State) : CycleControl :=
  (s.writeOwed (s.stoppedFeed taking)).cycle

theorem writeOwed_eq (s : State) (f : Option (Int × Int)) : s.writeOwed f = s.withCycle (s.writeOwed f).cycle := by
  unfold State.writeOwed
  split <;> rfl

variable (s : State) (k : FaultKind) (d : FaultDetail) (e : Option Entry)

theorem windowCount_faultStop : (s.faultStop e).windowCount = s.windowCount := rfl

theorem cycle_writeOwed_faultStop : ((s.faultStop e).writeOwed (s.stoppedFeed e)).cycle = s.owedAtFault e := by
  unfold State.owedAtFault State.writeOwed
  split <;> rfl

theorem motion_writeOwed (f : Option (Int × Int)) : (s.writeOwed f).motion = s.motion := by rw [writeOwed_eq]; rfl
theorem bed_writeOwed (f : Option (Int × Int)) : (s.writeOwed f).bed = s.bed := by rw [writeOwed_eq]; rfl
theorem marks_writeOwed (f : Option (Int × Int)) : (s.writeOwed f).marks = s.marks := by rw [writeOwed_eq]; rfl
theorem plan_writeOwed (f : Option (Int × Int)) : (s.writeOwed f).plan = s.plan := by rw [writeOwed_eq]; rfl
theorem link_writeOwed (f : Option (Int × Int)) : (s.writeOwed f).link = s.link := by rw [writeOwed_eq]; rfl
theorem nest_writeOwed (f : Option (Int × Int)) : (s.writeOwed f).nest = s.nest := by rw [writeOwed_eq]; rfl

/-- Only the feed remainder and the windows owed are written (R92). -/
theorem owedAtFault_only : ∃ r w, s.owedAtFault e = { s.cycle with remainder := r, owed := w } := by
  unfold State.owedAtFault State.writeOwed
  split
  · exact ⟨_, _, rfl⟩
  · exact ⟨_, _, rfl⟩

/-- The cycle controller after a fault entry. -/
theorem cycle_faultEntry : (s.faultEntry k d e).cycle =
    { s.owedAtFault e with
      state := .halted
      hold := none
      reasons := Reasons.none
      halts := 0
      taken := none
      before := none
      stopPending := false
      settleTimer := none
      feedJob := none
      testCuts := 0
      fault := some (s.faultRecord k d) } := by
  rw [← cycle_writeOwed_faultStop]
  unfold State.faultEntry
  extract_lets record feed a b c m z
  have hm : m.cycle = ((s.faultStop e).writeOwed (s.stoppedFeed e)).cycle := by
    unfold m c
    split <;> split <;> rfl
  show ({ m.cycle with state := _, hold := _, taken := _, settleTimer := _, reasons := _, halts := _, stopPending := _, before := _, feedJob := _, testCuts := _, fault := _ } : CycleControl) = _
  rw [hm]
  rfl

/-- The motion unit after a fault entry (R126, R130). -/
theorem motion_faultEntry : (s.faultEntry k d e).motion =
    { (s.faultStop e).motion with
      homed := if k = .estop ∨ k = .homeFail then false else s.motion.homed
      head := if k = .estop ∨ k = .homeFail then none else s.motion.head } := by
  unfold State.faultEntry
  extract_lets record feed a b c m z
  have hc : c.motion = (s.faultStop e).motion := by
    unfold c
    split <;> exact motion_writeOwed _ _
  show m.motion = _
  unfold m
  split <;> rename_i h
  · show ({ c.motion with homed := _, head := _ } : MotionUnit) = _
    rw [hc]
  · rw [hc]
    rfl

/-- The bed I/O unit after a fault entry: the safe values (R143). -/
theorem bed_faultEntry : (s.faultEntry k d e).bed = s.bed.safe := by
  unfold State.faultEntry
  extract_lets record feed a b c m z
  have hc : m.bed = b.bed := by
    unfold m c
    split <;> split <;> rfl
  have hb : b.bed = s.bed.safe := by
    show ((s.faultStop e).writeOwed feed).bed.safe = _
    rw [bed_writeOwed]
    rfl
  show ({ m.bed with beacon := _ } : BedIO) = _
  rw [hc, hb]
  rfl

/-- The link port after a fault entry: the FAULT notice formed (R147). -/
theorem link_faultEntry : (s.faultEntry k d e).link =
    { s.link with formed := s.link.formed ++ [faultNotice (s.faultRecord k d)] } := by
  unfold State.faultEntry
  extract_lets record feed a b c m z
  have hm : m.link = s.link := by
    unfold m c
    split <;> split <;> exact link_writeOwed _ _
  show ({ m.link with formed := m.link.formed ++ _ } : LinkPort) = _
  rw [hm]

/-- The planner after a fault entry (R84, R85, R145). -/
theorem plan_faultEntry : (s.faultEntry k d e).plan =
    { s.plan with worklist := s.plan.worklist.map Worklist.faulted } := by
  unfold State.faultEntry
  extract_lets record feed a b c m z
  have hm : m.plan = b.plan := by
    unfold m c
    split <;> split <;> rfl
  show m.plan = _
  rw [hm]
  show ({ ((s.faultStop e).writeOwed feed).plan with worklist := _ } : Planner) = _
  rw [plan_writeOwed]
  rfl

/-- The mark unit after a fault entry: invalidated while a run is active (R63). -/
theorem marks_faultEntry : (s.faultEntry k d e).marks =
    if s.cycle.runActive then s.marks.invalidate s.currentRows else s.marks := by
  obtain ⟨r, w, ho⟩ := owedAtFault_only s e
  unfold State.faultEntry
  extract_lets record feed a b c m z
  have hb : b.cycle = s.owedAtFault e := cycle_writeOwed_faultStop s e
  have hbm : b.marks = s.marks := marks_writeOwed _ _
  have hbn : b.nest = s.nest := nest_writeOwed _ _
  have hm : m.marks = c.marks := by
    unfold m
    split <;> rfl
  show m.marks = _
  rw [hm]
  unfold c
  have hr : b.cycle.runActive = s.cycle.runActive := by rw [hb, ho]
  have hp : b.cycle.pointer = s.cycle.pointer := by rw [hb, ho]
  split <;> rename_i h
  · rw [hr] at h
    rw [if_pos h]
    show b.marks.invalidate b.currentRows = _
    unfold State.currentRows State.windowSpan State.rowCount
    rw [hbm, hbn, hp]
  · rw [hr] at h
    rw [if_neg h, hbm]

/-- A fault entry leaves the panel store. -/
theorem store_faultEntry : (s.faultEntry k d e).store = s.store := by
  unfold State.faultEntry
  extract_lets record feed a b c m z
  have hb : b.store = s.store := by
    show ((s.faultStop e).writeOwed feed).store = _
    rw [writeOwed_eq]
    rfl
  show m.store = _
  unfold m c
  split <;> split <;> exact hb

/-- A fault entry leaves the nest unit. -/
theorem nest_faultEntry : (s.faultEntry k d e).nest = s.nest := blind_nest.faultEntry s k d e

/-- A fault entry leaves the commands that wait. -/
theorem pending_faultEntry : (s.faultEntry k d e).pending = s.pending := blind_pending.faultEntry s k d e

end Sys2Proof.Machine
end

