-- ==== Sys2Proof/Laws/PerInstr.lean ====
section
/-! SUPPORT. A statement of every command as syntax, command by command: a well-formed request makes a record whose
KIND is a request's and whose payload a frame can carry (R154, R162). -/

namespace Sys2Proof.Laws.Wire

/-- The record of a well-formed request has a KIND below the notices' and a payload of 2 to 242 bytes (R154). -/
def Statement (i : Instr) : Prop :=
  i.wellFormed = true → ∀ kind tag payload, requestFields i = some (kind, tag, payload) →
    kind.toNat < 0x60 ∧ 2 ≤ payload.length ∧ payload.length ≤ 242

/-- An event makes no record. -/
theorem of_event {i : Instr} (h : requestFields i = none) : Statement i := by
  intro _ k t p e
  rw [h] at e
  cases e

/-- A request whose record is known. -/
theorem of_fields {i : Instr} {k t : Byte} {p : List Byte} (h : requestFields i = some (k, t, p))
    (hk : k.toNat < 0x60) (hp : i.wellFormed = true → 2 ≤ p.length ∧ p.length ≤ 242) : Statement i := by
  intro w k' t' p' e
  rw [h] at e
  cases e
  exact ⟨hk, hp w⟩

theorem hardwareReset (cause : ResetCause) (wires : Byte) : Statement (.hardwareReset cause wires) := of_event rfl

theorem linkClear : Statement .linkClear := of_event rfl

theorem linkByteReceived (byte : Byte) (stopError : Bool) : Statement (.linkByteReceived byte stopError) := of_event rfl

theorem frameGapExpiry : Statement .frameGapExpiry := of_event rfl

theorem shortBreak : Statement .shortBreak := of_event rfl

theorem recordTake : Statement .recordTake := of_event rfl

theorem outboundRecordSent : Statement .outboundRecordSent := of_event rfl

theorem watchExpiry : Statement .watchExpiry := of_event rfl

theorem ident (tag : Byte) : Statement (.ident tag) := of_fields rfl (by decide) fun _ => ⟨by simp, by simp⟩

theorem linkTest (tag : Byte) (payload : List Byte) : Statement (.linkTest tag payload) := by
  refine of_fields rfl (by decide) fun h => ?_
  simp only [Instr.wellFormed, Bool.and_eq_true, decide_eq_true_eq] at h
  omega

theorem setLink (tag code : Byte) : Statement (.setLink tag code) := of_fields rfl (by decide) fun _ => ⟨by simp, by simp⟩

theorem setParam (tag param index : Byte) (value : Word) : Statement (.setParam tag param index value) := of_fields rfl (by decide) fun _ => ⟨by simp, by simp⟩

theorem getParam (tag param index : Byte) : Statement (.getParam tag param index) := of_fields rfl (by decide) fun _ => ⟨by simp, by simp⟩

theorem readTable (tag table qualifier : Byte) (start : Half) (max : Byte) : Statement (.readTable tag table qualifier start max) := of_fields rfl (by decide) fun _ => ⟨by simp, by simp⟩

theorem readNext (tag max : Byte) : Statement (.readNext tag max) := of_fields rfl (by decide) fun _ => ⟨by simp, by simp⟩

theorem watch (tag item slot : Byte) (period : Half) : Statement (.watch tag item slot period) := of_fields rfl (by decide) fun _ => ⟨by simp, by simp⟩

theorem setBreak (tag index kind argument action : Byte) : Statement (.setBreak tag index kind argument action) := of_fields rfl (by decide) fun _ => ⟨by simp, by simp⟩

theorem clearFault (tag : Byte) : Statement (.clearFault tag) := of_fields rfl (by decide) fun _ => ⟨by simp, by simp⟩

theorem status (tag : Byte) : Statement (.status tag) := of_fields rfl (by decide) fun _ => ⟨by simp, by simp⟩

theorem openOutline (tag slot : Byte) (n bleed : Half) (tool flags order passes : Byte) (label : List Byte) : Statement (.openOutline tag slot n bleed tool flags order passes label) := by
  refine of_fields rfl (by decide) fun h => ?_
  simp only [Instr.wellFormed, decide_eq_true_eq] at h
  simp
  omega

theorem points (tag : Byte) (first : Half) (vertices : List RawVertex) : Statement (.points tag first vertices) := by
  refine of_fields rfl (by decide) fun h => ?_
  simp only [Instr.wellFormed, Bool.and_eq_true, decide_eq_true_eq] at h
  simp
  omega

theorem closeOutline (tag : Byte) : Statement (.closeOutline tag) := of_fields rfl (by decide) fun _ => ⟨by simp, by simp⟩

theorem abandonOutline (tag : Byte) : Statement (.abandonOutline tag) := of_fields rfl (by decide) fun _ => ⟨by simp, by simp⟩

theorem setPanel (tag slot : Byte) (bleed : Half) (tool flags order passes : Byte) (label : List Byte) : Statement (.setPanel tag slot bleed tool flags order passes label) := by
  refine of_fields rfl (by decide) fun h => ?_
  simp only [Instr.wellFormed, decide_eq_true_eq] at h
  simp
  omega

theorem deletePanel (tag slot : Byte) : Statement (.deletePanel tag slot) := of_fields rfl (by decide) fun _ => ⟨by simp, by simp⟩

theorem nest (tag flags : Byte) : Statement (.nest tag flags) := of_fields rfl (by decide) fun _ => ⟨by simp, by simp⟩

theorem nestStep : Statement .nestStep := of_event rfl

theorem nestAbort (tag : Byte) : Statement (.nestAbort tag) := of_fields rfl (by decide) fun _ => ⟨by simp, by simp⟩

theorem place (tag slot rotation : Byte) (x y : Word) : Statement (.place tag slot rotation x y) := of_fields rfl (by decide) fun _ => ⟨by simp, by simp⟩

theorem unplace (tag slot : Byte) : Statement (.unplace tag slot) := of_fields rfl (by decide) fun _ => ⟨by simp, by simp⟩

theorem pin (tag slot : Byte) : Statement (.pin tag slot) := of_fields rfl (by decide) fun _ => ⟨by simp, by simp⟩

theorem unpin (tag slot : Byte) : Statement (.unpin tag slot) := of_fields rfl (by decide) fun _ => ⟨by simp, by simp⟩

theorem commit (tag mode : Byte) (slots : List Byte) : Statement (.commit tag mode slots) := by
  refine of_fields rfl (by decide) fun h => ?_
  simp only [Instr.wellFormed] at h
  split at h
  · have : slots = [] := by simpa using h
    subst this
    simp
  · have : slots.length ≤ 240 := by simpa using h
    simp
    omega

theorem uncommit (tag slot : Byte) : Statement (.uncommit tag slot) := of_fields rfl (by decide) fun _ => ⟨by simp, by simp⟩

theorem home (tag : Byte) : Statement (.home tag) := of_fields rfl (by decide) fun _ => ⟨by simp, by simp⟩

theorem startCut (tag : Byte) : Statement (.startCut tag) := of_fields rfl (by decide) fun _ => ⟨by simp, by simp⟩

theorem suspend (tag : Byte) : Statement (.suspend tag) := of_fields rfl (by decide) fun _ => ⟨by simp, by simp⟩

theorem resume (tag : Byte) : Statement (.resume tag) := of_fields rfl (by decide) fun _ => ⟨by simp, by simp⟩

theorem stopCut (tag : Byte) : Statement (.stopCut tag) := of_fields rfl (by decide) fun _ => ⟨by simp, by simp⟩

theorem skipPanel (tag slot : Byte) : Statement (.skipPanel tag slot) := of_fields rfl (by decide) fun _ => ⟨by simp, by simp⟩

theorem testCut (tag tool : Byte) (size : Half) (x y : Word) : Statement (.testCut tag tool size x y) := of_fields rfl (by decide) fun _ => ⟨by simp, by simp⟩

theorem jog (tag : Byte) (x y : Word) : Statement (.jog tag x y) := of_fields rfl (by decide) fun _ => ⟨by simp, by simp⟩

theorem feed (tag n : Byte) : Statement (.feed tag n) := of_fields rfl (by decide) fun _ => ⟨by simp, by simp⟩

theorem markSet (tag row side : Byte) (x y : Word) : Statement (.markSet tag row side x y) := of_fields rfl (by decide) fun _ => ⟨by simp, by simp⟩

theorem markTake (tag row side : Byte) : Statement (.markTake tag row side) := of_fields rfl (by decide) fun _ => ⟨by simp, by simp⟩

theorem acceptSeam (tag : Byte) : Statement (.acceptSeam tag) := of_fields rfl (by decide) fun _ => ⟨by simp, by simp⟩

theorem remeasure (tag : Byte) : Statement (.remeasure tag) := of_fields rfl (by decide) fun _ => ⟨by simp, by simp⟩

theorem jobClear (tag : Byte) : Statement (.jobClear tag) := of_fields rfl (by decide) fun _ => ⟨by simp, by simp⟩

theorem settleExpiry : Statement .settleExpiry := of_event rfl

theorem moveCompletion : Statement .moveCompletion := of_event rfl

theorem markSensorReport (x y : Rat) : Statement (.markSensorReport x y) := of_event rfl

theorem searchScanEnd : Statement .searchScanEnd := of_event rfl

theorem homeFullTravel (axis : Axis) : Statement (.homeFullTravel axis) := of_event rfl

theorem encoderStep (forward : Bool) : Statement (.encoderStep forward) := of_event rfl

theorem feedGuardExpiry : Statement .feedGuardExpiry := of_event rfl

theorem feedDriveDone : Statement .feedDriveDone := of_event rfl

theorem lineWireChange (line : Fin 8) (level : Bool) : Statement (.lineWireChange line level) := of_event rfl

theorem filterExpiry (line : Fin 8) : Statement (.filterExpiry line) := of_event rfl

theorem axisPositionReport (x y : Int) : Statement (.axisPositionReport x y) := of_event rfl

theorem linkLineReturnHigh : Statement .linkLineReturnHigh := of_event rfl

end Sys2Proof.Laws.Wire
end

