-- ==== Sys2Proof/Laws/Pieces.lean ====
section
/-! SUPPORT. What the pieces of a closed outline in a cut range are (R76, R77, R80): the run of edges of an open piece, its
crossing points, that every touching edge lies in a piece, and the order of the pieces. -/

namespace Sys2Proof.Machine

/-- Vertex `i` of the outline is inside the range. -/
abbrev insideAt (c : CutRange) (vs : List Vertex) (i : Nat) : Prop := c.inside (vertexAt vs i).v = true

theorem vertexAt_mod (vs : List Vertex) (i : Nat) : vertexAt vs (i % vs.length) = vertexAt vs i := by
  simp [vertexAt]

theorem vertexAt_add_length (vs : List Vertex) (i : Nat) : vertexAt vs (i + vs.length) = vertexAt vs i := by
  simp [vertexAt]

/-- Every vertex of the list is a vertex of the outline, and the other way round. -/
theorem all_inside_iff (c : CutRange) (vs : List Vertex) (h : vs ≠ []) :
    (vs.all fun w => c.inside w.v) = true ↔ ∀ i, insideAt c vs i := by
  have hl := List.length_pos_of_ne_nil h
  rw [List.all_eq_true]
  constructor
  · intro ha i
    have hi : i % vs.length < vs.length := Nat.mod_lt _ hl
    have e : vertexAt vs i = vs[i % vs.length] := by simp [vertexAt, List.getD_eq_getElem?_getD, hi]
    unfold insideAt
    rw [e]
    exact ha _ (List.getElem_mem hi)
  · intro ha w hw
    obtain ⟨i, hi, e⟩ := List.getElem_of_mem hw
    have := ha i
    have e' : vertexAt vs i = w := by simp [vertexAt, List.getD_eq_getElem?_getD, Nat.mod_eq_of_lt hi, hi, e]
    unfold insideAt at this
    rwa [e'] at this

/-- The run of an open piece: the edges up to the first whose end vertex is not inside (R76). -/
theorem runEdges_spec (c : CutRange) (vs : List Vertex) : ∀ n i : Nat,
    (∃ j, 1 ≤ j ∧ j ≤ n ∧ ¬ insideAt c vs (i + j)) →
    1 ≤ runEdges c vs n i ∧ runEdges c vs n i ≤ n ∧ ¬ insideAt c vs (i + runEdges c vs n i) ∧
    ∀ j, 0 < j → j < runEdges c vs n i → insideAt c vs (i + j)
  | 0, _, h => by obtain ⟨j, h1, h2, _⟩ := h; omega
  | n + 1, i, h => by
    unfold runEdges
    split
    · next hin =>
      have h' : ∃ j, 1 ≤ j ∧ j ≤ n ∧ ¬ insideAt c vs (i + 1 + j) := by
        obtain ⟨j, h1, h2, h3⟩ := h
        have : j ≠ 1 := fun e => h3 (e ▸ hin)
        exact ⟨j - 1, by omega, by omega, by rwa [show i + 1 + (j - 1) = i + j by omega]⟩
      obtain ⟨k1, k2, k3, k4⟩ := runEdges_spec c vs n (i + 1) h'
      refine ⟨by omega, by omega, by rwa [show i + (runEdges c vs n (i + 1) + 1) =
        i + 1 + runEdges c vs n (i + 1) by omega], fun j hj hj' => ?_⟩
      rcases Nat.lt_or_ge 1 j with h1 | h1
      · have := k4 (j - 1) (by omega) (by omega)
        rwa [show i + 1 + (j - 1) = i + j by omega] at this
      · have : j = 1 := by omega
        subst this
        exact hin
    · next hin =>
      exact ⟨by omega, by omega, by simpa using hin, fun j hj hj' => by omega⟩

/-- The run of a start vertex that is not inside ends at the latest when it comes round to it. -/
theorem runEdges_round (c : CutRange) (vs : List Vertex) (i : Nat) (h : ¬ insideAt c vs i) (hl : vs ≠ []) :
    1 ≤ runEdges c vs vs.length i ∧ runEdges c vs vs.length i ≤ vs.length ∧
    ¬ insideAt c vs (i + runEdges c vs vs.length i) ∧
    ∀ j, 0 < j → j < runEdges c vs vs.length i → insideAt c vs (i + j) := by
  have hp := List.length_pos_of_ne_nil hl
  refine runEdges_spec c vs vs.length i ⟨vs.length, by omega, le_refl _, ?_⟩
  unfold insideAt
  rwa [vertexAt_add_length]

/-- Edge `i` touches the range: an end inside, or its ends on either side (R76). -/
theorem touches_iff (c : CutRange) (vs : List Vertex) (i : Nat) : touches c vs i = true ↔
    (insideAt c vs i ∨ insideAt c vs (i + 1) ∨
      (c.below (vertexAt vs i).v = true ∧ c.above (vertexAt vs (i + 1)).v = true) ∨
      (c.above (vertexAt vs i).v = true ∧ c.below (vertexAt vs (i + 1)).v = true)) := by
  simp [touches, insideAt, Bool.or_eq_true, Bool.and_eq_true, or_assoc]

theorem mem_openPieces (c : CutRange) (vs : List Vertex) (p : Piece) : p ∈ openPieces c vs ↔
    ∃ i, i < vs.length ∧ touches c vs i = true ∧ ¬ insideAt c vs i ∧ p = openPiece c vs i := by
  simp only [openPieces, List.mem_map, List.mem_filter, List.mem_range, Bool.and_eq_true, Bool.not_eq_true',
    insideAt, Bool.not_eq_true]
  constructor
  · rintro ⟨i, ⟨h1, h2, h3⟩, h4⟩; exact ⟨i, h1, h2, h3, h4.symm⟩
  · rintro ⟨i, h1, h2, h3, h4⟩; exact ⟨i, ⟨h1, h2, h3⟩, h4.symm⟩

/-- Every edge of an open piece touches the range. -/
theorem touches_of_run (c : CutRange) (vs : List Vertex) (i m j : Nat) (ht : touches c vs i = true)
    (hin : ∀ k, 0 < k → k < m → insideAt c vs (i + k)) (hj : j < m) : touches c vs (i + j) = true := by
  rcases Nat.eq_zero_or_pos j with h | h
  · subst h; exact ht
  · exact (touches_iff c vs _).mpr (Or.inl (hin j h hj))

/-- Every touching edge lies in an open piece, when some vertex is not inside. -/
theorem exists_openPiece (c : CutRange) (vs : List Vertex) (hl : vs ≠ []) (hn : ¬ ∀ i, insideAt c vs i) (i : Nat)
    (hi : i < vs.length) (ht : touches c vs i = true) :
    ∃ f, f < vs.length ∧ touches c vs f = true ∧ ¬ insideAt c vs f ∧
      ∃ j, j < runEdges c vs vs.length f ∧ (f + j) % vs.length = i := by
  have hp := List.length_pos_of_ne_nil hl
  have hex : ∃ d, d ≤ i + vs.length ∧ ¬ insideAt c vs (i + vs.length - d) := by
    obtain ⟨w, hw⟩ := not_forall.mp hn
    have hlt : w % vs.length < vs.length := Nat.mod_lt _ hp
    refine ⟨i + vs.length - w % vs.length, by omega, ?_⟩
    rw [show i + vs.length - (i + vs.length - w % vs.length) = w % vs.length by omega]
    unfold insideAt
    rwa [vertexAt_mod]
  classical
  obtain ⟨hd, hnd⟩ := Nat.find_spec hex
  set d := Nat.find hex with hdef
  have hmin : ∀ e, e < d → insideAt c vs (i + vs.length - e) := by
    intro e he
    have := Nat.find_min hex he
    by_contra hc
    exact this ⟨by omega, hc⟩
  have hf : (i + vs.length - d) % vs.length < vs.length := Nat.mod_lt _ hp
  have hat : ∀ j, vertexAt vs ((i + vs.length - d) % vs.length + j) = vertexAt vs (i + vs.length - d + j) := by
    intro j
    simp [vertexAt]
  have hni : ¬ insideAt c vs ((i + vs.length - d) % vs.length) := by
    unfold insideAt
    rw [vertexAt_mod]
    exact hnd
  obtain ⟨r1, r2, r3, r4⟩ := runEdges_round c vs _ hni hl
  have hrun : d < runEdges c vs vs.length ((i + vs.length - d) % vs.length) := by
    by_contra hc
    refine r3 ?_
    unfold insideAt
    rw [hat]
    have hm := hmin (d - runEdges c vs vs.length ((i + vs.length - d) % vs.length)) (by omega)
    unfold insideAt at hm
    rwa [show i + vs.length - d + runEdges c vs vs.length ((i + vs.length - d) % vs.length) =
      i + vs.length - (d - runEdges c vs vs.length ((i + vs.length - d) % vs.length)) by omega]
  refine ⟨(i + vs.length - d) % vs.length, hf, ?_, hni, d, hrun, ?_⟩
  · rcases Nat.eq_zero_or_pos d with h0 | h0
    · have e : (i + vs.length - d) % vs.length = i := by
        rw [h0, Nat.sub_zero, Nat.add_mod_right, Nat.mod_eq_of_lt hi]
      rw [e]
      exact ht
    · refine (touches_iff c vs _).mpr (Or.inr (Or.inl ?_))
      unfold insideAt
      rw [hat, show i + vs.length - d + 1 = i + vs.length - (d - 1) by omega]
      exact hmin (d - 1) (by omega)
  · rw [Nat.mod_add_mod, show i + vs.length - d + d = i + vs.length by omega, Nat.add_mod_right,
      Nat.mod_eq_of_lt hi]

/-- The v of a crossing point is the boundary on the side of the outside vertex. -/
theorem crossing_v (c : CutRange) (vs : List Vertex) (i v : Nat) :
    (crossing c vs i v).v = if c.below v = true then c.lo else c.hi := rfl

/-- The u of a crossing point is interpolated along the edge and rounded (R77), for a boundary between its ends. -/
theorem crossing_u (c : CutRange) (vs : List Vertex) (i v : Nat)
    (hne : (vertexAt vs i).v ≠ (vertexAt vs (i + 1)).v)
    (hb : let b := (crossing c vs i v).v
      ((vertexAt vs i).v ≤ b ∧ b ≤ (vertexAt vs (i + 1)).v) ∨ ((vertexAt vs (i + 1)).v ≤ b ∧ b ≤ (vertexAt vs i).v)) :
    roundsTo (((vertexAt vs i).u : Rat) + (((vertexAt vs (i + 1)).u : Rat) - (vertexAt vs i).u) *
      (((crossing c vs i v).v : Rat) - (vertexAt vs i).v) / (((vertexAt vs (i + 1)).v : Rat) - (vertexAt vs i).v))
      (crossing c vs i v).u := by
  simp only [crossing] at hb ⊢
  set bound := if c.below v = true then c.lo else c.hi with hbound
  set a := vertexAt vs i with ha
  set b := vertexAt vs (i + 1) with hbb
  set den : Int := (b.v : Int) - a.v with hden
  have hd0 : den ≠ 0 := by omega
  have hdpos : 0 < den.natAbs := Int.natAbs_pos.mpr hd0
  set num : Int := ((b.u : Int) - a.u) * ((bound : Int) - a.v) with hnum
  set top : Int := a.u * den.natAbs + (if den < 0 then -num else num) with htop
  have hdQ : ((den : Int) : Rat) ≠ 0 := by exact_mod_cast hd0
  have hval : (a.u : Rat) + ((b.u : Rat) - a.u) * ((bound : Rat) - a.v) / ((b.v : Rat) - a.v) =
      (top : Rat) / (den.natAbs : Rat) := by
    have e1 : ((b.v : Rat) - a.v) = ((den : Int) : Rat) := by rw [hden]; push_cast; ring
    have e2 : ((b.u : Rat) - a.u) * ((bound : Rat) - a.v) = ((num : Int) : Rat) := by rw [hnum]; push_cast; ring
    rw [e1, e2]
    have hdN : ((den.natAbs : Nat) : Rat) ≠ 0 := by exact_mod_cast hdpos.ne'
    rcases lt_or_gt_of_ne hd0 with h | h
    · have e3 : ((den.natAbs : Nat) : Rat) = -((den : Int) : Rat) := by
        rw [← Int.cast_natCast, Int.ofNat_natAbs_of_nonpos (le_of_lt h)]; push_cast; ring
      have e4 : (top : Rat) = a.u * ((den.natAbs : Nat) : Rat) + -(num : Rat) := by
        rw [htop, if_pos h, Int.cast_add, Int.cast_mul, Int.cast_natCast, Int.cast_natCast, Int.cast_neg]
      rw [e4, e3]
      field_simp
      ring
    · have e3 : ((den.natAbs : Nat) : Rat) = ((den : Int) : Rat) := by
        rw [← Int.cast_natCast, Int.natAbs_of_nonneg (le_of_lt h)]
      have e4 : (top : Rat) = a.u * ((den.natAbs : Nat) : Rat) + (num : Rat) := by
        rw [htop, if_neg (not_lt.mpr (le_of_lt h)), Int.cast_add, Int.cast_mul, Int.cast_natCast, Int.cast_natCast]
      rw [e4, e3]
      field_simp
  have hround := roundsTo_roundDiv top den.natAbs hdpos
  rw [hval]
  have htop0 : 0 ≤ top := by
    rw [htop]
    rcases lt_or_gt_of_ne hd0 with h | h
    · rw [if_pos h]
      have e3 : (den.natAbs : Int) = -den := Int.ofNat_natAbs_of_nonpos (le_of_lt h)
      rw [e3, hnum, hden]
      have h1 : (b.v : Int) ≤ bound := by omega
      have h2 : (bound : Int) ≤ a.v := by omega
      have h3 : (0 : Int) ≤ a.u := by omega
      have h4 : (0 : Int) ≤ b.u := by omega
      nlinarith [mul_nonneg h3 (sub_nonneg.mpr h1), mul_nonneg h4 (sub_nonneg.mpr h2)]
    · rw [if_neg (not_lt.mpr (le_of_lt h))]
      have e3 : (den.natAbs : Int) = den := Int.natAbs_of_nonneg (le_of_lt h)
      rw [e3, hnum, hden]
      have h1 : (a.v : Int) ≤ bound := by omega
      have h2 : (bound : Int) ≤ b.v := by omega
      have h3 : (0 : Int) ≤ a.u := by omega
      have h4 : (0 : Int) ≤ b.u := by omega
      nlinarith [mul_nonneg h3 (sub_nonneg.mpr h2), mul_nonneg h4 (sub_nonneg.mpr h1)]
  have hr0 : 0 ≤ roundDiv top den.natAbs := by
    unfold roundDiv
    rw [if_neg (not_lt.mpr htop0)]
    exact Int.natCast_nonneg _
  rwa [Int.toNat_of_nonneg hr0]

theorem mem_rotatePieces (n : Nat) (ps : List Piece) (p : Piece) : p ∈ rotatePieces n ps ↔ p ∈ ps := by
  unfold rotatePieces
  cases h : ps.getLast? with
  | none => rfl
  | some q =>
    have e := List.dropLast_append_getLast? q h
    dsimp only
    split
    · rw [← e]; simp [or_comm]
    · rfl

/-- The first vertices of the open pieces ascend. -/
theorem openPieces_ascend (c : CutRange) (vs : List Vertex) :
    (openPieces c vs).Pairwise fun a b => a.first < b.first := by
  unfold openPieces
  rw [List.pairwise_map]
  exact (List.pairwise_lt_range.filter _).imp fun h => h

theorem piecesOf_closed (c : CutRange) (vs : List Vertex) (hl : vs ≠ []) (h : ∀ i, insideAt c vs i) :
    piecesOf c vs = [⟨0, 0, vs.length, none, none⟩] := by
  unfold piecesOf
  rw [if_neg (by simpa using hl), if_pos ((all_inside_iff c vs hl).mpr h)]

theorem piecesOf_open (c : CutRange) (vs : List Vertex) (hl : vs ≠ []) (h : ¬ ∀ i, insideAt c vs i) :
    piecesOf c vs = rotatePieces vs.length (openPieces c vs) := by
  unfold piecesOf
  rw [if_neg (by simpa using hl), if_neg (fun hc => h ((all_inside_iff c vs hl).mp hc))]

/-- An open piece runs from a vertex not inside over vertices inside to the next one not inside (R76). -/
theorem openPieces_run (c : CutRange) (vs : List Vertex) (hl : vs ≠ []) (p : Piece) (hp : p ∈ openPieces c vs) :
    p.first < vs.length ∧ 1 ≤ p.segments ∧ p.segments ≤ vs.length ∧ p.last = (p.first + p.segments) % vs.length ∧
    ¬ insideAt c vs p.first ∧ ¬ insideAt c vs (p.first + p.segments) ∧
    (∀ j, 0 < j → j < p.segments → insideAt c vs (p.first + j)) ∧
    (∀ j, j < p.segments → touches c vs (p.first + j) = true) := by
  obtain ⟨i, hi, ht, hn, rfl⟩ := (mem_openPieces c vs p).mp hp
  obtain ⟨r1, r2, r3, r4⟩ := runEdges_round c vs i hn hl
  exact ⟨hi, r1, r2, rfl, hn, r3, r4, fun j hj => touches_of_run c vs i _ j ht r4 hj⟩

/-- A piece that goes round past the last vertex is the last of the open pieces. -/
theorem openPieces_wrap_last (c : CutRange) (vs : List Vertex) (hl : vs ≠ []) (p q : Piece)
    (hp : p ∈ openPieces c vs) (hq : q ∈ openPieces c vs) (hw : vs.length < p.first + p.segments) :
    q.first ≤ p.first := by
  obtain ⟨_, _, _, _, _, _, p7, _⟩ := openPieces_run c vs hl p hp
  obtain ⟨q1, _, _, _, q5, _, _, _⟩ := openPieces_run c vs hl q hq
  by_contra h
  have := p7 (q.first - p.first) (by omega) (by omega)
  rw [show p.first + (q.first - p.first) = q.first by omega] at this
  exact q5 this

/-- The pieces of an outline that is not wholly inside stand in the order of R80: the first holds the touching edge of
lowest index, and the others ascend. -/
theorem rotatePieces_order (c : CutRange) (vs : List Vertex) (hl : vs ≠ []) (hn : ¬ ∀ i, insideAt c vs i) (p : Piece)
    (rest : List Piece) (h : rotatePieces vs.length (openPieces c vs) = p :: rest) :
    rest.Pairwise (fun a b => a.first < b.first) ∧
    ∀ i, i < vs.length → touches c vs i = true → ∃ j, j < p.segments ∧ (p.first + j) % vs.length ≤ i := by
  have hasc := openPieces_ascend c vs
  unfold rotatePieces at h
  cases hlast : (openPieces c vs).getLast? with
  | none => rw [hlast] at h; rw [List.getLast?_eq_none_iff.mp hlast] at h; cases h
  | some q =>
    have e := List.dropLast_append_getLast? q hlast
    have hq : q ∈ openPieces c vs := List.mem_of_getLast? hlast
    rw [hlast] at h
    dsimp only at h
    split at h
    · next hw =>
      cases h
      obtain ⟨q1, q2, q3, _⟩ := openPieces_run c vs hl _ hq
      refine ⟨hasc.sublist (List.dropLast_sublist _), fun i _ _ => ⟨vs.length - p.first, by omega, ?_⟩⟩
      rw [show p.first + (vs.length - p.first) = vs.length by omega, Nat.mod_self]
      exact Nat.zero_le _
    · next hw =>
      rw [h] at hasc
      rw [List.pairwise_cons] at hasc
      refine ⟨hasc.2, fun i hi ht => ?_⟩
      obtain ⟨f, hf, hft, hfn, j, hj, hji⟩ := exists_openPiece c vs hl hn i hi ht
      have hmem : openPiece c vs f ∈ openPieces c vs := (mem_openPieces c vs _).mpr ⟨f, hf, hft, hfn, rfl⟩
      have hpf : p.first ≤ f := by
        rw [h] at hmem
        rcases List.mem_cons.mp hmem with e1 | e1
        · rw [← e1]; exact le_refl f
        · exact le_of_lt (hasc.1 _ e1)
      have hpm : p ∈ openPieces c vs := h ▸ List.mem_cons_self
      obtain ⟨p1, p2, _⟩ := openPieces_run c vs hl p hpm
      refine ⟨0, by omega, ?_⟩
      rw [Nat.add_zero, Nat.mod_eq_of_lt p1]
      rcases Nat.lt_or_ge (f + j) vs.length with h1 | h1
      · rw [Nat.mod_eq_of_lt h1] at hji
        omega
      · exfalso
        have hwf : vs.length < (openPiece c vs f).first + (openPiece c vs f).segments := by
          show vs.length < f + runEdges c vs vs.length f
          omega
        have h2 := openPieces_wrap_last c vs hl _ q hmem hq hwf
        have hqe : q = openPiece c vs f := by
          have h3 : openPiece c vs f = q ∨ (openPiece c vs f).first < q.first := by
            have hm := hmem
            rw [← e] at hm
            rcases List.mem_append.mp hm with h4 | h4
            · right
              have ha := openPieces_ascend c vs
              rw [← e, List.pairwise_append] at ha
              exact ha.2.2 _ h4 q List.mem_cons_self
            · left
              exact List.mem_singleton.mp h4
          rcases h3 with h3 | h3
          · exact h3.symm
          · omega
        rw [hqe] at hw
        exact hw hwf

end Sys2Proof.Machine
end

