-- ==== Sys2Proof/Laws/Skyline.lean ====
section
/-! SUPPORT. The height of a skyline at a point and over a range (R26, R32), for a list of segments that covers the
usable width. -/

namespace Sys2Proof.Machine

/-- Every segment of a covering list starts at or behind its left end, has a width, and ends at or before its right end. -/
theorem coversRoll_bounds : ∀ (l : List Seg) (a b : Nat), coversRoll a b l → ∀ g ∈ l,
    a ≤ g.x ∧ 0 < g.width ∧ g.x + g.width ≤ b
  | [], _, _, _, g, hg => absurd hg List.not_mem_nil
  | h :: l, a, b, hc, g, hg => by
    obtain ⟨h1, h2, h3, h4⟩ := hc
    have hab : ∀ (l : List Seg) (a b : Nat), coversRoll a b l → a ≤ b := by
      intro l
      induction l with
      | nil => intro a b h; exact le_of_eq h
      | cons k t ih => intro a b h; have := ih _ _ h.2.2.2; omega
    rcases List.mem_cons.mp hg with e | hm
    · subst e
      have := hab _ _ _ h4
      omega
    · have := coversRoll_bounds l _ _ h4 g hm
      omega

/-- The height at a point of a segment is the segment's height. -/
theorem heightAt_of_mem : ∀ (l : List Seg) (a b : Nat), coversRoll a b l → ∀ g ∈ l, ∀ x, g.x ≤ x → x < g.x + g.width →
    heightAt l x = some g.height
  | [], _, _, _, g, hg, _, _, _ => absurd hg List.not_mem_nil
  | h :: l, a, b, hc, g, hg, x, h1, h2 => by
    have hc' := hc
    obtain ⟨c1, c2, c3, c4⟩ := hc
    unfold heightAt
    rcases List.mem_cons.mp hg with e | hm
    · subst e
      simp [h1, h2]
    · have hb := coversRoll_bounds l _ _ c4 g hm
      have hn : (decide (h.x ≤ x) && decide (x < h.x + h.width)) = false := by
        rw [Bool.and_eq_false_iff]
        right
        simp only [decide_eq_false_iff_not]
        omega
      rw [List.find?_cons, hn]
      exact heightAt_of_mem l _ _ c4 g hm x h1 h2

/-- Every point of the usable width lies in a segment. -/
theorem exists_seg : ∀ (l : List Seg) (a b : Nat), coversRoll a b l → ∀ x, a ≤ x → x < b →
    ∃ g ∈ l, g.x ≤ x ∧ x < g.x + g.width
  | [], a, b, hc, x, h1, h2 => by have : a = b := hc; omega
  | h :: l, a, b, hc, x, h1, h2 => by
    obtain ⟨c1, c2, c3, c4⟩ := hc
    rcases Nat.lt_or_ge x (a + h.width) with h3 | h3
    · exact ⟨h, List.mem_cons_self, by omega, by omega⟩
    · obtain ⟨g, hg, hx⟩ := exists_seg l _ _ c4 x h3 h2
      exact ⟨g, List.mem_cons_of_mem _ hg, hx⟩

/-- No element of a list is above its greatest. -/
theorem le_maxOf : ∀ (l : List Nat) (a : Nat), a ∈ l → a ≤ maxOf l
  | [], a, h => absurd h List.not_mem_nil
  | b :: l, a, h => by
    show a ≤ Nat.max b (maxOf l)
    rcases List.mem_cons.mp h with e | hm
    · rw [e]; exact Nat.le_max_left _ _
    · exact Nat.le_trans (le_maxOf l a hm) (Nat.le_max_right _ _)

/-- The greatest of a list with an element is an element. -/
theorem maxOf_mem : ∀ l : List Nat, l ≠ [] → maxOf l ∈ l
  | [], h => absurd rfl h
  | [b], _ => by simp [maxOf]
  | b :: c :: l, _ => by
    have ih := maxOf_mem (c :: l) (by simp)
    show Nat.max b (maxOf (c :: l)) ∈ b :: c :: l
    rcases Nat.le_total b (maxOf (c :: l)) with h | h
    · rw [show Nat.max b (maxOf (c :: l)) = maxOf (c :: l) from Nat.max_eq_right h]
      exact List.mem_cons_of_mem _ ih
    · rw [show Nat.max b (maxOf (c :: l)) = b from Nat.max_eq_left h]
      exact List.mem_cons_self

/-- Two ranges with points meet exactly when each begins before the other ends. -/
theorem rangesMeet_iff (a b c d : Nat) : rangesMeet a b c d = true ↔ a < d ∧ c < b := by
  simp [rangesMeet]

/-- The height over a range is at least the height at each of its points. -/
theorem heightAt_le_heightOver (l : List Seg) (xl xr a b x : Nat) (hc : coversRoll xl xr l) (h1 : xl ≤ x) (h2 : x < xr)
    (ha : a ≤ x) (hb : x < b) : ∃ h, heightAt l x = some h ∧ h ≤ heightOver l a b := by
  obtain ⟨g, hg, g1, g2⟩ := exists_seg l xl xr hc x h1 h2
  refine ⟨g.height, heightAt_of_mem l xl xr hc g hg x g1 g2, le_maxOf _ _ ?_⟩
  refine List.mem_map.mpr ⟨g, List.mem_filter.mpr ⟨hg, (rangesMeet_iff _ _ _ _).mpr ⟨by omega, by omega⟩⟩, rfl⟩

/-- The height over a range is the height at one of its points. -/
theorem exists_heightAt_eq (l : List Seg) (xl xr a b : Nat) (hc : coversRoll xl xr l) (h1 : xl ≤ a) (h2 : a < b)
    (h3 : b ≤ xr) : ∃ x, a ≤ x ∧ x < b ∧ heightAt l x = some (heightOver l a b) := by
  have hne : ((l.filter fun g => rangesMeet g.x (g.x + g.width) a b).map (·.height)) ≠ [] := by
    obtain ⟨g, hg, g1, g2⟩ := exists_seg l xl xr hc a h1 (by omega)
    intro he
    have hm : g.height ∈ (l.filter fun g => rangesMeet g.x (g.x + g.width) a b).map (·.height) :=
      List.mem_map.mpr ⟨g, List.mem_filter.mpr ⟨hg, (rangesMeet_iff _ _ _ _).mpr ⟨by omega, by omega⟩⟩, rfl⟩
    rw [he] at hm
    exact absurd hm List.not_mem_nil
  obtain ⟨g, hg, e⟩ := List.mem_map.mp (maxOf_mem _ hne)
  obtain ⟨hg1, hg2⟩ := List.mem_filter.mp hg
  obtain ⟨m1, m2⟩ := (rangesMeet_iff _ _ _ _).mp hg2
  obtain ⟨b1, b2, b3⟩ := coversRoll_bounds l xl xr hc g hg1
  refine ⟨max a g.x, by omega, by omega, ?_⟩
  rw [heightAt_of_mem l xl xr hc g hg1 (max a g.x) (by omega) (by omega)]
  exact congrArg some e

end Sys2Proof.Machine
end

