-- ==== Sys2Proof/Tests/Slice0.lean ====
section
/-! SUPPORT. The model's own tests: ill-formed terms that the check refuses, worked examples of the spec, and for each
statement of Certificates/Slice0/Obligations.lean a theorem `test_hypotheses_<Name>` that shows states and operands
which meet its hypotheses, clause by clause, with the status that `exec` answers there. -/

namespace Sys2Proof.Tests

set_option Elab.async false

open Sys2Proof Sys2Proof.Machine

/-! ### Helpers -/

/-- `State.ready` as a Bool. -/
def isReady (s : State) : Bool :=
  s.motionSettled && s.link.formed.isEmpty && decide (s.link.outbound.length < 24)

theorem isReady_sound (s : State) (h : isReady s = true) : s.ready := by
  simp only [isReady, Bool.and_eq_true, List.isEmpty_iff, decide_eq_true_eq] at h
  exact ⟨⟨h.1.1, h.1.2⟩, h.2⟩

/-- The state after a command. -/
def after (c : Instr) (s : State) : Option State := match exec c s with
  | .next t => some t
  | .fault _ => none
  | .refused _ => none

/-- The command answers this status from a state that is ready. -/
def answers (c : Instr) (s : State) (status : Status) : Bool :=
  isReady s && match after c s with
    | some t => ((t.link.outbound.drop s.link.outbound.length).head?.bind (·.payload.head?)) == some status.code
    | none => false

/-- The command leaves the state as it is. -/
def keeps (c : Instr) (s : State) : Bool := after c s == some s

/-- The command ends in this cycle state. -/
def endsIn (c : Instr) (s : State) (st : CycleState) : Bool := (after c s).map (·.cycle.state) == some st

/-- A panel with an outline of 1000 by 1000 counts in block 0. -/
def loadedPanel : Panel :=
  { Panel.emptyRecord with state := .loaded, vertexCount := 4, bbox := some ⟨0, 0, 1000, 1000⟩, chain := [0] }

/-- The panel placed at (x, y), with a lock. -/
def placedPanel (lock : Lock) (x y : Nat) : Panel :=
  { loadedPanel with state := .placed, lock := lock, placement := some ⟨x, y, .r0⟩ }

/-- The panel put in a slot of the state, its block off the free list. -/
def withPanel (i : Slot) (p : Panel) (s : State) : State :=
  { s with store := { s.store with panels := s.store.panels.set i p, free := (List.range 512).drop 1 } }

/-- The state right after reset, with the head homed at (1000, 1000). -/
def homed : State :=
  { State.reset with motion := { State.reset.motion with homed := true, head := some ⟨1000, 1000⟩ } }

/-- A line with its wire and taken level high. -/
def lineOn (i : Fin 8) (s : State) : State :=
  { s with bed := { s.bed with lines := s.bed.lines.set i (Line.reset true) } }

/-- The queue given, its first entry executing. -/
def moving (q : List Entry) (s : State) : State :=
  { s with motion := { s.motion with queue := q, executing := !q.isEmpty } }

/-- The cycle state given. -/
def inState (st : CycleState) (s : State) : State := { s with cycle := { s.cycle with state := st } }

/-- HELD for a reason, in a run. -/
def heldFor (r : HoldReason) (s : State) : State :=
  { s with
    cycle := { s.cycle with state := .held, hold := some r, runActive := true }
    bed := { s.bed with beacon := true } }

/-- SUSPENDED on request, in a run. -/
def suspendedAt (p : ResumePoint) (s : State) : State :=
  { s with cycle := { s.cycle with state := .suspended, taken := some ⟨⟨true, false, false⟩, 0, p⟩, runActive := true } }

/-- A fault record of a kind, latched in CUTTING. -/
def faultOf (k : FaultKind) : FaultRecord := ⟨k, .none, .cutting, .none, 0, none, none, 0, none⟩

/-- HALTED with a record. -/
def haltedBy (r : FaultRecord) (s : State) : State :=
  { s with
    cycle := { s.cycle with state := .halted, fault := some r }
    bed := { s.bed with beacon := true } }

/-- A suspension on request pending. -/
def suspending (s : State) : State := { s with cycle := { s.cycle with reasons := ⟨true, false, false⟩ } }

/-- A nest run over the draft given. -/
def nesting (draft : List DraftEntry) (s : State) : State :=
  { s with nest := { s.nest with skyline := [⟨1500, 134000, 5000⟩], run := some ⟨false, draft, 0⟩ } }

/-- An outline open in slot 0 with block 0, 4 vertices expected. -/
def opened (received : Nat) (error : Option (LoadError × Nat)) (s : State) : State :=
  let s := withPanel 0 { Panel.emptyRecord with state := .loading, vertexCount := 4, chain := [0] } s
  { s with store := { s.store with loader := some ⟨0, 4, received, error⟩ } }

/-- `n` rows of unread marks, with their bands. -/
def withRows (n : Nat) (s : State) : State := { s with marks := s.marks.applyRowCount n }

/-- The readying phase of MEASURING over rows 0 to 2. -/
def readying (s : State) : State :=
  let s := withRows 3 s
  { s with
    cycle := { s.cycle with state := .measuring, phase := .readying, runActive := true }
    marks := { s.marks with span := some ⟨0, 2⟩ } }

/-- An outbound queue of `n` records. -/
def outboundOf (n : Nat) (s : State) : State :=
  { s with link := { s.link with outbound := List.replicate n ⟨0x60, 0, [0, 0], none⟩ } }

/-! ### Ill-formed terms -/

theorem test_illFormed_linkTest :
    (Instr.linkTest 1 [7]).wellFormed = false ∧ (Instr.linkTest 1 (List.replicate 240 7)).wellFormed = false ∧
    (Instr.linkTest 1 [7, 7]).wellFormed = true ∧ (Instr.linkTest 1 (List.replicate 239 7)).wellFormed = true := by
  decide +kernel

theorem test_illFormed_labels :
    (Instr.openOutline 1 0 4 0 0 0 0 0 (List.replicate 13 65)).wellFormed = false ∧
    (Instr.openOutline 1 0 4 0 0 0 0 0 (List.replicate 12 65)).wellFormed = true ∧
    (Instr.setPanel 1 0 0 0 0 0 0 (List.replicate 13 65)).wellFormed = false ∧
    (Instr.setPanel 1 0 0 0 0 0 0 (List.replicate 12 65)).wellFormed = true := by
  decide +kernel

theorem test_illFormed_points :
    (Instr.points 1 0 []).wellFormed = false ∧ (Instr.points 1 0 (List.replicate 29 ⟨1, 1⟩)).wellFormed = false ∧
    (Instr.points 1 0 (List.replicate 28 ⟨1, 1⟩)).wellFormed = true := by
  decide +kernel

theorem test_illFormed_commit :
    (Instr.commit 1 0 [4]).wellFormed = false ∧ (Instr.commit 1 1 (List.replicate 241 0)).wellFormed = false ∧
    (Instr.commit 1 0 []).wellFormed = true := by
  decide +kernel

/-! ### Worked examples of the spec -/

/-- A panel of the worked nest (2-7): its print extent and whether it may be turned. -/
def vanPanel (width height : Nat) (rotateOk : Bool) : Panel :=
  { loadedPanel with bbox := some ⟨0, 0, width, height⟩, rotateOk := rotateOk }

/-- 2-7.1: the five placings of the worked nest and the final skyline. -/
theorem test_workedNest :
    let lp := LayoutParams.reset
    let bonnet := placeOne lp [⟨1500, 134000, 5000⟩] (vanPanel 130000 150000 false)
    let sideL := placeOne lp bonnet.2 (vanPanel 60000 320000 true)
    let sideR := placeOne lp sideL.2 (vanPanel 60000 320000 true)
    let door := placeOne lp sideR.2 (vanPanel 119500 97000 false)
    let mirror := placeOne lp door.2 (vanPanel 25000 12000 true)
    bonnet.1 = .placed ⟨1500, 5000, .r0⟩ ∧ sideL.1 = .placed ⟨1500, 155600, .r0⟩ ∧
    sideR.1 = .placed ⟨62100, 155600, .r0⟩ ∧ door.1 = .placed ⟨1500, 476200, .r0⟩ ∧
    mirror.1 = .placed ⟨122700, 155600, .r90⟩ ∧
    mirror.2 = [⟨1500, 120100, 573800⟩, ⟨121600, 1100, 476200⟩, ⟨122700, 12600, 181200⟩, ⟨135300, 200, 5000⟩] := by
  decide +kernel

/-- A READ mark of window 2, with its position of window 1 where one is given. -/
def readMark (x y : Int) (previous : Option BedPos) : Mark :=
  ⟨.read, some ⟨⟨x, y⟩, 2⟩, previous.map fun q => ⟨q, 1⟩, 1⟩

/-- 3-7: the marks of window 2 of the worked correction. -/
def workedMarks : MarkUnit :=
  { MarkUnit.reset with
    rows := List.replicate 4 ⟨Mark.fresh, Mark.fresh⟩ ++
      [⟨readMark 2790 10120 (some ⟨2785, 110105⟩), readMark 138310 9940 (some ⟨138305, 109920⟩)⟩,
       ⟨readMark 2730 60180 none, readMark 138290 60050 none⟩,
       ⟨readMark 2710 110230 none, readMark 138270 110110 none⟩]
    bands := List.replicate 6 .unchecked
    span := some ⟨4, 6⟩
    seam := some ⟨2, 100010⟩ }

/-- 3-7.3, 3-7.4: the seam passes, both bands pass, and the point is corrected to (420.22, 351.05). -/
theorem test_workedCorrection :
    workedMarks.seamFailure = none ∧
    { workedMarks with seamTol := 29 }.seamFailure = some (925, .right) ∧ roundSqrtDiv 925 1 = 30 ∧
    (workedMarks.checkSpan LayoutParams.reset).bands = List.replicate 4 .unchecked ++ [.ok, .ok] ∧
    correctIn LayoutParams.reset (workedMarks.checkSpan LayoutParams.reset) 4 ⟨40000, 230000⟩ = some ⟨42022, 35105⟩ ∧
    workedMarks.searchCentre LayoutParams.reset 2 6 .left = ⟨2730, 110180⟩ := by
  decide +kernel

/-- 4-5: the mapped outline of the worked split, in counts. -/
def doorOutline : List Vertex :=
  [⟨11000, 131000⟩, ⟨129000, 131000⟩, ⟨125000, 449000⟩, ⟨70000, 449000⟩, ⟨60000, 410000⟩, ⟨11000, 410000⟩]

/-- 4-5: the pieces of the door in its three windows, with the crossing points shared by neighbours. -/
theorem test_workedSplit :
    piecesOf ⟨5000, 155000, false⟩ doorOutline = [⟨5, 2, 3, some ⟨11000, 155000⟩, some ⟨128698, 155000⟩⟩] ∧
    piecesOf ⟨155000, 305000, false⟩ doorOutline =
      [⟨1, 2, 1, some ⟨128698, 155000⟩, some ⟨126811, 305000⟩⟩,
       ⟨5, 0, 1, some ⟨11000, 305000⟩, some ⟨11000, 155000⟩⟩] ∧
    piecesOf ⟨305000, 455000, true⟩ doorOutline =
      [⟨1, 0, 5, some ⟨126811, 305000⟩, some ⟨11000, 305000⟩⟩] := by
  decide +kernel

/-- 9-7: the parameters written in the worked initialisation. -/
theorem test_workedParameters :
    answers (.setParam 4 0x01 0 127000) State.reset .ok = true ∧
    (after (.setParam 4 0x01 0 127000) State.reset).map (answers (.setParam 5 0x01 0 127000) · .noChange) = some true ∧
    answers (.setParam 6 0x31 5 1) State.reset .ok = true ∧ answers (.setParam 7 0x32 5 1) State.reset .ok = true ∧
    answers (.setParam 8 0x31 0 1) State.reset .badArg = true := by
  decide +kernel

/-! ### The hypotheses of the statements: reset, link clear, the link port -/

/-- A state of rest with `n` outbound records in place of STARTED. -/
def atN (n : Nat) : State := outboundOf n State.reset

theorem test_hypotheses_StepRunsFrontCommand : State.reset.pending = [] ∧ step State.reset = .next State.reset :=
  ⟨rfl, rfl⟩

theorem test_hypotheses_HardwareResetUnits :
    (0xFE : Byte).getLsbD 0 = false ∧ endsIn (.hardwareReset .resetLine 0xFE) homed .idle = true ∧
    (0x01 : Byte).getLsbD 0 = true ∧ endsIn (.hardwareReset .powerOn 0x01) homed .halted = true := by
  decide +kernel

theorem test_hypotheses_LinkClearClearsOrFaults :
    (let s := nesting [⟨0, .pending⟩] (opened 1 none homed)
     isReady s = true ∧ s.link.armed = true ∧ s.busy = false ∧ s.cycle.state = .idle ∧ endsIn .linkClear s .idle = true) ∧
    (let s := heldFor .recover homed
     isReady s = true ∧ s.link.armed = true ∧ s.busy = false ∧ s.cycle.state = .held ∧ endsIn .linkClear s .held = true) ∧
    (let s := haltedBy (faultOf .guard) homed
     isReady s = true ∧ s.link.armed = true ∧ s.busy = false ∧ endsIn .linkClear s .halted = true) ∧
    (let s := moving [.travel .cycle ⟨0, 0⟩] homed
     isReady s = true ∧ s.link.armed = true ∧ s.cycle.fault = none ∧ s.busy = true ∧
     endsIn .linkClear s .halted = true) ∧
    (let s := inState .measuring homed
     isReady s = true ∧ s.cycle.fault = none ∧ s.cycle.state = .measuring ∧ endsIn .linkClear s .halted = true) ∧
    (let s : State := { homed with link := { homed.link with armed := false } }
     isReady s = true ∧ s.link.armed = false ∧ keeps .linkClear s = true) := by
  decide +kernel

theorem test_hypotheses_LinkRateFollowsItsReply :
    isReady (atN 1) = true ∧ (atN 1).link.outbound ≠ [] ∧
    (atN 0).link.outbound = [] ∧ keeps .outboundRecordSent (atN 0) = true ∧
    answers (.setLink 1 4) (atN 23) .badArg = true ∧ answers (.setLink 1 0) (atN 23) .noChange = true ∧
    answers (.setLink 1 3) (atN 23) .ok = true := by
  decide +kernel

/-- The receiver in a frame. -/
def framing (bytes : List Byte) (stopError : Bool) : State :=
  { State.reset with link := { State.reset.link with receiver := .inFrame bytes stopError } }

theorem test_hypotheses_ReceiverTakesBytes :
    keeps (.linkByteReceived 0xA4 false) State.reset = true ∧ keeps (.linkByteReceived 0xA5 true) State.reset = true ∧
    after (.linkByteReceived 0xA5 false) State.reset = some (framing [] false) ∧
    after (.linkByteReceived 4 false) (framing [] false) = some (framing [4] false) ∧
    after (.linkByteReceived 244 true) (framing [] false) = some (framing [244] true) ∧
    ((after (.linkByteReceived 3 false) (framing [] false)).map (·.link.inbound.map (·.damage))) = some [some .framing] ∧
    ((after (.linkByteReceived 245 false) (framing [] false)).map (·.link.inbound.map (·.damage))) =
      some [some .framing] ∧
    after (.linkByteReceived 9 false) (framing [4] false) = some (framing [4, 9] false) ∧
    after (.linkByteReceived 9 false) (framing [4, 1, 1, 5, 0] false) = some (framing [4, 1, 1, 5, 0, 9] false) ∧
    ((after (.linkByteReceived 9 false) (framing [4, 1, 1, 5, 0, 9] false)).map (·.link.inbound)) =
      some [⟨[1, 1, 5, 0], some .check, none⟩] ∧
    ((after .frameGapExpiry (framing [4, 1, 1, 5, 0, 9] false)).map (·.link.inbound)) =
      some [⟨[1, 1, 5, 0], some .truncated, none⟩] ∧
    ((after .shortBreak (framing [] false)).map (·.link.inbound)) = some [⟨[], some .framing, none⟩] ∧
    keeps .frameGapExpiry State.reset = true ∧ keeps .shortBreak State.reset = true := by
  decide +kernel

theorem test_hypotheses_FrameIsReceivedWhole :
    State.reset.link.receiver = .hunting ∧ (List.replicate 4 (9 : Byte)).length = 4 ∧
    (List.replicate 244 (9 : Byte)).length = 244 := by
  decide +kernel

theorem test_hypotheses_RequestsReadBack :
    (Instr.ident 3).wellFormed = true ∧ (requestBody (.ident 3)).isSome = true ∧
    (Instr.linkTest 3 (List.replicate 239 0)).wellFormed = true ∧
    (requestBody (.linkTest 3 (List.replicate 239 0))).isSome = true ∧
    (Instr.commit 3 7 (List.replicate 240 0)).wellFormed = true ∧
    (requestBody (.commit 3 7 (List.replicate 240 0))).isSome = true := by
  decide +kernel

/-- A record at the head of the inbound queue, with `n` outbound records. -/
def arriving (r : InRecord) (n : Nat) : State :=
  let s := atN n
  { s with link := { s.link with inbound := [r] } }

theorem test_hypotheses_RecordTakeDelivers :
    answers .recordTake (arriving ⟨[0x0B, 7, 0, 0, 0], none, none⟩ 23) .badLength = true ∧
    requestBody (.status 7) = some [0x0B, 7, 0, 0] ∧ (Instr.status 7).wellFormed = true ∧
    answers .recordTake (arriving ⟨[0x0B, 7, 0, 0], none, none⟩ 23) .ok = true ∧
    parseBody [0x7F, 7, 0, 0] = .unknownKind ∧ answers .recordTake (arriving ⟨[0x7F, 7, 0, 0], none, none⟩ 23) .unknownKind = true ∧
    parseBody [0x0B, 7, 0, 0, 0] = .badLength ∧
    keeps .recordTake (atN 1) = true ∧ keeps .recordTake (arriving ⟨[0x0B, 7, 0, 0], none, none⟩ 24) = true ∧
    keeps .recordTake (arriving ⟨[0x0B, 7, 0, 0], none, some 1⟩ 23) = true ∧
    (after .recordTake (arriving ⟨[0x0B], some .check, none⟩ 23)).map (·.link.dropped) = some true ∧
    (after .recordTake (arriving ⟨[0x0B], some .check, some 9⟩ 22)).map (·.link.outbound.length) = some 23 ∧
    (after .recordTake (arriving ⟨[0x0B, 7, 0, 0], none, some 255⟩ 22)).map (·.link.outbound.length) = some 24 := by
  decide +kernel

theorem test_hypotheses_QueueRoomRules :
    (State.reset.link.enter [1] none).inbound = [⟨[1], none, none⟩] ∧
    (let l : LinkPort := { State.reset.link with inbound := List.replicate 8 ⟨[1], none, none⟩, overrun := 255 }
     8 ≤ l.inbound.length ∧ l.overrun ≤ 255 ∧ l.enter [1] none = l) := by
  decide +kernel

theorem test_hypotheses_LinkTestEchoes :
    answers (.linkTest 1 [7]) (atN 23) .badLength = true ∧
    answers (.linkTest 1 (List.replicate 240 7)) (atN 23) .badLength = true ∧
    answers (.linkTest 1 [7, 7]) (atN 23) .ok = true ∧
    answers (.linkTest 1 (List.replicate 239 7)) (atN 23) .ok = true := by
  decide +kernel

theorem test_hypotheses_ReadsAndTheirWidths :
    (List.replicate 12 (65 : Byte)).length ≤ 12 ∧ answers (.ident 1) (atN 23) .ok = true ∧
    answers (.status 1) (atN 23) .ok = true ∧ answers (.getParam 1 0x01 0) (atN 23) .ok = true ∧
    answers (.getParam 1 0x7F 0) (atN 23) .badArg = true := by
  decide +kernel

/-- The table-read cursor given. -/
def reading (c : TableCursor) : State :=
  let s := atN 23
  { s with link := { s.link with cursor := some c } }

theorem test_hypotheses_TableReads :
    answers (.readTable 1 0 0 0 0) (atN 23) .badArg = true ∧ cursorOf 8 0 0 = none ∧
    answers (.readTable 1 8 0 0 1) (atN 23) .badArg = true ∧
    cursorOf 0 0 95 = some ⟨.panels, 0, 0, 95, false⟩ ∧ answers (.readTable 1 0 0 95 4) (atN 23) .ok = true ∧
    answers (.readNext 1 0) (atN 23) .badArg = true ∧ (atN 23).link.cursor = none ∧
    answers (.readNext 1 1) (atN 23) .ok = true ∧
    answers (.readNext 1 255) (reading ⟨.panels, 0, 0, 96, false⟩) .ok = true ∧
    answers (.readTable 1 5 0 0 1) (atN 23) .ok = true ∧
    answers (.readNext 1 1) (reading ⟨.inputs, 0, 0, 1, true⟩) .ok = true := by
  decide +kernel

theorem test_hypotheses_WatchAndItsTimer :
    answers (.watch 1 5 0 100) (atN 23) .badArg = true ∧ answers (.watch 1 1 0 99) (atN 23) .badArg = true ∧
    answers (.watch 1 1 0 10001) (atN 23) .badArg = true ∧ answers (.watch 1 4 96 100) (atN 23) .badArg = true ∧
    WatchItem.panel.code = (4 : Byte).toNat ∧ answers (.watch 1 4 95 100) (atN 23) .ok = true ∧
    answers (.watch 1 1 200 10000) (atN 23) .ok = true ∧ answers (.watch 1 0 0 0) (atN 23) .ok = true ∧
    keeps .watchExpiry (atN 23) = true ∧
    (let s : State := { atN 19 with link := { (atN 19).link with watch := ⟨.cycle, 0, 100⟩, watchTimer := some 100 } }
     isReady s = true ∧ s.link.watchTimer.isSome = true ∧
     (after .watchExpiry s).map (·.link.outbound.length) = some 20) := by
  decide +kernel

/-! ### Parameters and the panel store -/

theorem test_hypotheses_RangeParametersWritten :
    (0x28, 0, 5000) ∈ rangeParams ∧ answers (.setParam 1 0x28 0 5001) (atN 23) .badArg = true ∧
    answers (.setParam 1 0x28 0 (-1)) (atN 23) .badArg = true ∧
    (atN 23).paramValue 0x28 0 = some 800 ∧ answers (.setParam 1 0x28 0 800) (atN 23) .noChange = true ∧
    answers (.setParam 1 0x28 0 0) (atN 23) .ok = true ∧ answers (.setParam 1 0x28 0 5000) (atN 23) .ok = true ∧
    rangeParams.all (fun q => (answers (.setParam 1 q.1 0 (BitVec.ofNat 32 q.2.1)) (atN 23) .ok ||
      answers (.setParam 1 q.1 0 (BitVec.ofNat 32 q.2.1)) (atN 23) .noChange)) = true := by
  decide +kernel

theorem test_hypotheses_LayoutParametersLocked :
    answers (.setParam 1 0x04 0 50000) (nesting [] State.reset) .nestBusy = true ∧
    answers (.setParam 1 0x01 0 29999) State.reset .badArg = true ∧
    (let s : State := { State.reset with
       nest := { State.reset.nest with params := { LayoutParams.reset with windowLength := 60000 } } }
     answers (.setParam 1 0x04 0 60001) s .badArg = true ∧ answers (.setParam 1 0x04 0 60000) s .ok = true ∧
     answers (.setParam 1 0x05 0 50000) s .ok = true) ∧
    answers (.setParam 1 0x06 0 5000) (withPanel 0 (placedPanel .free 1500 5000) State.reset) .locked = true ∧
    answers (.setParam 1 0x03 0 5000) State.reset .noChange = true ∧
    answers (.setParam 1 0x02 0 500) State.reset .ok = true := by
  decide +kernel

theorem test_hypotheses_OpenOutlineReserves :
    answers (.openOutline 1 95 3 5000 1 3 255 4 (List.replicate 12 0x7E)) (atN 23) .ok = true ∧
    answers (.openOutline 1 0 4096 0 0 0 0 0 []) State.reset .ok = true ∧
    answers (.openOutline 1 0 4 0 0 0 0 0 []) (nesting [] State.reset) .nestBusy = true ∧
    answers (.openOutline 1 0 4 0 0 0 0 0 []) (opened 0 none State.reset) .outlineOpen = true ∧
    answers (.openOutline 1 96 4 0 0 0 0 0 []) State.reset .badArg = true ∧
    answers (.openOutline 1 0 2 0 0 0 0 0 []) State.reset .badArg = true ∧
    answers (.openOutline 1 0 4097 0 0 0 0 0 []) State.reset .badArg = true ∧
    settingsOf 5001 0 0 0 0 [] = none ∧ answers (.openOutline 1 0 4 5001 0 0 0 0 []) State.reset .badArg = true ∧
    settingsOf 0 0 0 0 0 [] ≠ none ∧
    answers (.openOutline 1 0 4 0 0 0 0 0 []) (withPanel 0 loadedPanel State.reset) .refusedState = true ∧
    (let s : State := { State.reset with store := { State.reset.store with free := [0, 1] } }
     answers (.openOutline 1 0 64 0 0 0 0 0 []) s .ok = true ∧
     answers (.openOutline 1 0 65 0 0 0 0 0 []) s .noSpace = true) := by
  decide +kernel

theorem test_hypotheses_PointsAreStored :
    (let s := opened 3 none State.reset
     isReady s = true ∧ (s.panel 0).chain.Nodup ∧ 4 ≤ 32 * (s.panel 0).chain.length ∧
     (after (.points 1 3 [⟨2000000, 0⟩]) s).map (·.store.vertex [0] 3) = some ⟨2000000, 0⟩) ∧
    answers (.points 1 0 []) State.reset .badLength = true ∧
    answers (.points 1 0 (List.replicate 29 ⟨0, 0⟩)) State.reset .badLength = true ∧
    answers (.points 1 0 (List.replicate 28 ⟨0, 0⟩)) State.reset .sequence = true ∧
    keeps (.points 1 0 [⟨0, 0⟩]) (opened 3 (some (.over, 3)) State.reset) = true ∧
    after (.points 1 4 [⟨0, 0⟩]) (opened 3 none State.reset) = some (opened 3 (some (.order, 4)) State.reset) ∧
    after (.points 1 3 [⟨0, 0⟩, ⟨0, 0⟩]) (opened 3 none State.reset) =
      some (opened 3 (some (.over, 3)) State.reset) ∧
    after (.points 1 3 [⟨0, 2000001⟩]) (opened 3 none State.reset) =
      some (opened 3 (some (.range, 3)) State.reset) := by
  decide +kernel

/-- An outline received whole, with the four vertices given. -/
def received (a b c d : Vertex) : State :=
  let s := opened 4 none State.reset
  { s with store := { s.store with contour := [(0, a), (1, b), (2, c), (3, d)] } }

theorem test_hypotheses_CloseOutlineLoads :
    (let s := received ⟨1, 1⟩ ⟨9, 1⟩ ⟨9, 5⟩ ⟨1, 5⟩
     let vs := s.store.vertices (s.panel 0).chain 4
     isReady s = true ∧ (∀ i < 4, vs[i]? ≠ vs[(i + 1) % 4]?) ∧
     (∀ w ∈ vs, 1 ≤ w.u ∧ w.u ≤ 1 + 8 ∧ 1 ≤ w.v ∧ w.v ≤ 1 + 4) ∧ (∃ w ∈ vs, w.u = 1 + 8) ∧ (∃ w ∈ vs, w.v = 1 + 4) ∧
     answers (.closeOutline 1) s .ok = true) ∧
    answers (.closeOutline 1) State.reset .sequence = true ∧
    answers (.closeOutline 1) (opened 3 (some (.order, 7)) State.reset) .sequence = true ∧
    answers (.closeOutline 1) (opened 3 none State.reset) .sequence = true ∧
    answers (.closeOutline 1) (received ⟨1, 1⟩ ⟨9, 1⟩ ⟨9, 5⟩ ⟨1, 1⟩) .badArg = true ∧
    answers (.closeOutline 1) (received ⟨1, 1⟩ ⟨9, 1⟩ ⟨3, 1⟩ ⟨4, 1⟩) .badArg = true := by
  decide +kernel

theorem test_hypotheses_AbandonOutlineEmpties :
    answers (.abandonOutline 1) (opened 3 none State.reset) .ok = true ∧
    answers (.abandonOutline 1) State.reset .noChange = true := by
  decide +kernel

theorem test_hypotheses_SetPanelWritesSettings :
    (let s := withPanel 0 (placedPanel .pinned 1500 5000) State.reset
     answers (.setPanel 1 0 0 0 0 0 0 []) (nesting [] s) .nestBusy = true ∧
     answers (.setPanel 1 96 0 0 0 0 0 []) s .badArg = true ∧ answers (.setPanel 1 0 0 2 0 0 0 []) s .badArg = true ∧
     answers (.setPanel 1 1 0 0 0 0 0 []) s .refusedState = true ∧
     answers (.setPanel 1 0 0 0 0 0 0 []) (withPanel 0 (placedPanel .committed 1500 5000) s) .locked = true ∧
     answers (.setPanel 1 0 1 0 0 0 0 []) s .refusedState = true ∧
     answers (.setPanel 1 0 0 0 2 0 0 []) s .refusedState = true ∧
     answers (.setPanel 1 0 0 0 0 0 0 []) s .noChange = true ∧
     answers (.setPanel 1 0 0 1 1 9 4 [65]) s .ok = true) := by
  decide +kernel

theorem test_hypotheses_DeletePanelEmpties :
    (let s := withPanel 0 (placedPanel .pinned 1500 5000) State.reset
     answers (.deletePanel 1 0) (nesting [] s) .nestBusy = true ∧ answers (.deletePanel 1 96) s .badArg = true ∧
     answers (.deletePanel 1 95) s .refusedState = true ∧
     answers (.deletePanel 1 0) (withPanel 0 (placedPanel .committed 1500 5000) s) .locked = true ∧
     answers (.deletePanel 1 0) (withPanel 0 loadedPanel s) .ok = true ∧ s.cycle.state ≠ .measuring ∧
     answers (.deletePanel 1 0) (withRows 2 s) .ok = true) := by
  decide +kernel

/-! ### The nest unit and the mark table -/

theorem test_hypotheses_SkylineRaisedAndSet :
    coversRoll 1500 135500 [⟨1500, 1000, 5000⟩, ⟨2500, 133000, 6000⟩] ∧
    raiseSkyline 1500 135500 5500 [⟨1500, 1000, 5000⟩, ⟨2500, 133000, 6000⟩] =
      [⟨1500, 1000, 5500⟩, ⟨2500, 133000, 6000⟩] ∧
    setSkyline 2000 3000 7 [⟨1500, 1000, 5000⟩, ⟨2500, 133000, 6000⟩] =
      [⟨1500, 500, 5000⟩, ⟨2000, 1000, 7⟩, ⟨3000, 132500, 6000⟩] := by
  refine ⟨?_, by decide +kernel, by decide +kernel⟩
  simp [coversRoll]

theorem test_hypotheses_NestStartsRun :
    answers (.nest 1 2) (atN 23) .badArg = true ∧
    (let s := withPanel 0 loadedPanel (atN 23)
     (s.panel 0).lock = .free ∧ (s.panel 0).state = .loaded ∧ answers (.nest 1 0) s .accepted = true ∧
     answers (.nest 1 1) s .accepted = true) ∧
    answers (.nest 1 0) (nesting [] State.reset) .nestBusy = true ∧
    answers (.nest 1 0) (opened 0 none State.reset) .outlineOpen = true ∧
    (let s := withPanel 0 (placedPanel .pinned 1500 5000) (atN 20)
     s.cycle.state ≠ .measuring ∧ (∀ i : Fin 96, (s.panel i).inRunSet = false) ∧
     s.link.outbound.length + 4 ≤ 24 ∧ answers (.nest 1 0) s .accepted = true ∧
     (after (.nest 1 0) s).map (·.link.outbound.length) = some 22) := by
  decide +kernel

theorem test_hypotheses_PlacingChoosesLowestTop :
    candidates LayoutParams.reset [⟨1500, 134000, 5000⟩] loadedPanel ≠ [] ∧
    candidates LayoutParams.reset [] loadedPanel = [] ∧
    candidates LayoutParams.reset [⟨1500, 134000, 5000⟩] (vanPanel 134001 10 false) = [] ∧
    placeOne LayoutParams.reset [⟨1500, 134000, 5000⟩] (vanPanel 134001 10 false) =
      (.unfit, [⟨1500, 134000, 5000⟩]) ∧
    placeOne LayoutParams.reset [⟨1500, 134000, 4955000⟩] (vanPanel 134000 10 false) =
      (.noRoom, [⟨1500, 134000, 4955000⟩]) := by
  decide +kernel

theorem test_hypotheses_NestStepPlacesAndCompletes :
    keeps .nestStep State.reset = true ∧
    (let s := nesting [⟨0, .pending⟩, ⟨1, .pending⟩] (withPanel 0 loadedPanel State.reset)
     isReady s = true ∧ (after .nestStep s).map (·.nest.run) =
       some (some ⟨false, [⟨0, .placed ⟨1500, 5000, .r0⟩⟩, ⟨1, .pending⟩], 1⟩)) ∧
    (let s := nesting [⟨0, .pending⟩] (withPanel 0 loadedPanel State.reset)
     isReady s = true ∧ s.cycle.state ≠ .measuring ∧ (after .nestStep s).map (·.nest.run) = some none ∧
     (after .nestStep s).map (·.marks.rows.length) = some 2) := by
  decide +kernel

theorem test_hypotheses_NestAbortGivesUp :
    answers (.nestAbort 1) (nesting [⟨0, .pending⟩] (atN 23)) .ok = true ∧
    answers (.nestAbort 1) (atN 23) .noChange = true := by
  decide +kernel

theorem test_hypotheses_MarkTableFollowsLayout :
    0 < LayoutParams.reset.markPitch ∧ (placedPanel .free 1500 5000).placement ≠ none ∧
    rowCountOf LayoutParams.reset [placedPanel .free 1500 5000] = 2 ∧
    rowCountOf LayoutParams.reset [placedPanel .free 1500 54000] = 2 ∧
    rowCountOf LayoutParams.reset [placedPanel .free 1500 54001] = 3 ∧
    (withRows 3 State.reset).marks.bandsSafe = true ∧ MarkUnit.reset.bandsSafe = true := by
  decide +kernel

theorem test_hypotheses_PlaceTakesPlacement :
    (let s := withPanel 0 loadedPanel (atN 23)
     s.cycle.state ≠ .measuring ∧ answers (.place 1 0 0 1500 5000) s .ok = true ∧
     answers (.place 1 0 0 134500 4954000) s .ok = true ∧
     answers (.place 1 0 90 1500 5000) (withPanel 0 { loadedPanel with rotateOk := true } s) .ok = true ∧
     answers (.place 1 0 90 1500 5000) s .badArg = true ∧
     answers (.place 1 0 0 1499 5000) s .doesNotFit = true ∧ answers (.place 1 0 0 134501 5000) s .doesNotFit = true ∧
     answers (.place 1 0 0 1500 4999) s .doesNotFit = true ∧
     answers (.place 1 0 0 1500 4954001) s .doesNotFit = true ∧
     answers (.place 1 1 0 1500 5000) s .refusedState = true ∧
     answers (.place 1 0 0 1500 5000) (withPanel 0 (placedPanel .committed 1500 5000) s) .locked = true ∧
     answers (.place 1 0 0 3099 5000) (withPanel 1 (placedPanel .free 1500 5000) s) .overlap = true ∧
     answers (.place 1 0 0 3100 5000) (withPanel 1 (placedPanel .free 1500 5000) s) .ok = true) := by
  decide +kernel

theorem test_hypotheses_UnplaceRemovesPlacement :
    (let s := withPanel 0 (placedPanel .pinned 1500 5000) (atN 23)
     s.cycle.state ≠ .measuring ∧ answers (.unplace 1 0) s .ok = true ∧
     answers (.unplace 1 0) (nesting [] s) .nestBusy = true ∧
     answers (.unplace 1 1) (opened 0 none s) .outlineOpen = true ∧
     answers (.unplace 1 0) (withPanel 0 (placedPanel .committed 1500 5000) s) .locked = true ∧
     answers (.unplace 1 0) (withPanel 0 loadedPanel s) .noChange = true ∧
     answers (.unplace 1 95) s .refusedState = true) := by
  decide +kernel

theorem test_hypotheses_PinFixesAndUnpinFrees :
    (let s := withPanel 0 (placedPanel .free 1500 5000) (atN 23)
     let t := withPanel 0 (placedPanel .pinned 1500 5000) (atN 23)
     let u := withPanel 0 (placedPanel .committed 1500 5000) (atN 23)
     answers (.pin 1 0) (nesting [] s) .nestBusy = true ∧ answers (.pin 1 1) (opened 0 none s) .outlineOpen = true ∧
     answers (.pin 1 96) s .badArg = true ∧ answers (.pin 1 0) u .locked = true ∧
     answers (.pin 1 0) (withPanel 0 loadedPanel s) .refusedState = true ∧ answers (.pin 1 0) t .noChange = true ∧
     answers (.pin 1 0) s .ok = true ∧
     answers (.unpin 1 0) (nesting [] t) .nestBusy = true ∧
     answers (.unpin 1 1) (opened 0 none t) .outlineOpen = true ∧ answers (.unpin 1 96) t .badArg = true ∧
     answers (.unpin 1 0) u .locked = true ∧ answers (.unpin 1 95) t .refusedState = true ∧
     answers (.unpin 1 0) s .noChange = true ∧ answers (.unpin 1 0) t .ok = true) := by
  decide +kernel

theorem test_hypotheses_UncommitNeedsKey :
    (let s := lineOn 4 (withPanel 0 (placedPanel .committed 1500 5000) (atN 23))
     answers (.uncommit 1 0) (nesting [] s) .nestBusy = true ∧
     answers (.uncommit 1 0) (opened 0 none s) .outlineOpen = true ∧ answers (.uncommit 1 96) s .badArg = true ∧
     answers (.uncommit 1 95) s .refusedState = true ∧ answers (.uncommit 1 0) (withPanel 0 loadedPanel s) .noChange = true ∧
     answers (.uncommit 1 0) (withPanel 0 (placedPanel .committed 1500 5000) (atN 23)) .locked = true ∧
     answers (.uncommit 1 0) (withPanel 0 { placedPanel .committed 1500 5000 with state := .cut } s) .refusedState = true ∧
     (let passed : State := { s with cycle := { s.cycle with pointer := 1 } }
      passed.reachesBuilt (passed.panel 0) = true ∧ answers (.uncommit 1 0) passed .windowPassed = true) ∧
     s.reachesBuilt (s.panel 0) = false ∧ answers (.uncommit 1 0) s .ok = true) := by
  decide +kernel

theorem test_hypotheses_CommitAllOrNone :
    (let s := withPanel 0 (placedPanel .pinned 1500 5000) (atN 23)
     let passed : State := { s with cycle := { s.cycle with pointer := 1 } }
     answers (.commit 1 2 []) s .badArg = true ∧ answers (.commit 1 1 []) s .badArg = true ∧
     answers (.commit 1 1 (List.replicate 97 0)) s .badArg = true ∧ answers (.commit 1 1 [0, 96]) s .badArg = true ∧
     answers (.commit 1 1 [0, 95]) s .refusedState = true ∧
     answers (.commit 1 0 []) (withPanel 0 (placedPanel .committed 1500 5000) s) .noChange = true ∧
     answers (.commit 1 0 []) (atN 23) .noChange = true ∧
     answers (.commit 1 1 [0]) passed .windowPassed = true ∧ answers (.commit 1 0 []) passed .windowPassed = true ∧
     answers (.commit 1 0 []) s .ok = true ∧ answers (.commit 1 1 (List.replicate 96 0)) s .ok = true ∧
     passed.plan.worklist = none ∧ (s.panel 95).placement = none ∧ (s.panel 0).placement ≠ none ∧
     passed.reachesBuilt (passed.panel 0) = true ∧
     passed.reachesBuilt (placedPanel .pinned 1500 105000) = false ∧
     passed.reachesBuilt (placedPanel .pinned 1500 104999) = true) := by
  decide +kernel

/-! ### The cut cycle -/

theorem test_hypotheses_SetBreakWrites :
    (let s := atN 23
     answers (.setBreak 1 5 0 0 0) s .badArg = true ∧ answers (.setBreak 1 4 0 0 2) s .badArg = true ∧
     answers (.setBreak 1 4 0 0 0) s .noChange = true ∧ answers (.setBreak 1 4 0 0 1) s .ok = true ∧
     breakKindOf 1 96 = none ∧ answers (.setBreak 1 3 1 96 0) s .badArg = true ∧
     breakKindOf 2 100 = none ∧ breakKindOf 4 99 = none ∧ breakKindOf 5 0 = none ∧
     answers (.setBreak 1 3 0 7 1) s .noChange = true ∧ breakKindOf 4 98 = some (.band 98) ∧
     answers (.setBreak 1 3 4 98 0) s .ok = true) := by
  decide +kernel

theorem test_hypotheses_ClearFaultLeavesHalted :
    (let s := lineOn 1 (haltedBy { faultOf .vacuumLost with followOn := 1, lastFollowOn := some .guard } (atN 23))
     s.cycleSafe = true ∧ answers (.clearFault 1) s .stillActive = true) ∧
    (let s := haltedBy (faultOf .estop) (atN 23)
     s.cycleSafe = true ∧ answers (.clearFault 1) s .ok = true ∧ endsIn (.clearFault 1) s .idle = true ∧
     answers (.clearFault 1) (lineOn 0 s) .stillActive = true ∧
     (let t : State := { s with cycle := { s.cycle with runActive := true } }
      t.cycleSafe = true ∧ endsIn (.clearFault 1) t .held = true)) ∧
    (atN 23).cycleSafe = true ∧ answers (.clearFault 1) (atN 23) .noChange = true := by
  decide +kernel

theorem test_hypotheses_HomeAndJogMove :
    (let s := atN 23
     s.cycleSafe = true ∧ answers (.home 1) (haltedBy (faultOf .estop) s) .faultLatched = true ∧
     (haltedBy (faultOf .estop) s).cycleSafe = true ∧
     answers (.home 1) (suspendedAt .settle s) .refusedState = true ∧ (suspendedAt .settle s).cycleSafe = true ∧
     answers (.home 1) (moving [.travel .cycle ⟨0, 0⟩] s) .busy = true ∧
     (moving [.travel .cycle ⟨0, 0⟩] s).cycleSafe = true ∧ answers (.home 1) (lineOn 1 s) .guardOpen = true ∧
     (lineOn 1 s).cycleSafe = true ∧ answers (.home 1) s .ok = true ∧ endsIn (.home 1) s .homing = true) ∧
    answers (.jog 1 0 0) (haltedBy (faultOf .estop) homed) .faultLatched = true ∧
    answers (.jog 1 0 0) (inState .measuring homed) .refusedState = true ∧
    answers (.jog 1 165001 0) homed .badArg = true ∧ answers (.jog 1 0 (-1)) homed .badArg = true ∧
    answers (.jog 1 165000 260000) State.reset .notHomed = true ∧
    answers (.jog 1 0 0) (lineOn 1 homed) .guardOpen = true ∧
    answers (.jog 1 0 0) (moving [.travel .cycle ⟨0, 0⟩] homed) .busy = true ∧
    answers (.jog 1 165000 260000) (heldFor .recover homed) .ok = true ∧
    isReady (moving [.travel .cycle ⟨5, 5⟩] homed) = true ∧
    (after .moveCompletion (moving [.travel .cycle ⟨5, 5⟩] homed)).map (·.motion.head) = some (some ⟨5, 5⟩) := by
  decide +kernel

/-- The fourth cut of a test cut executing, begun in HELD. -/
def lastTestCut : State :=
  let s := moving [.cut .thru ⟨1000, 1000⟩ none] homed
  { s with cycle := { s.cycle with
      state := .testcut, testCuts := 3, before := some ⟨.held, some .recover, none⟩, runActive := true } }

theorem test_hypotheses_TestCutAndReturn :
    homed.cycleSafe = true ∧ answers (.testCut 1 0 500 164500 259500) homed .ok = true ∧
    (let s := suspendedAt .feed homed
     s.cycleSafe = true ∧ answers (.testCut 1 1 2500 0 0) s .ok = true ∧ endsIn (.testCut 1 1 2500 0 0) s .testcut = true) ∧
    isReady lastTestCut = true ∧ lastTestCut.cycleSafe = true ∧ endsIn .moveCompletion lastTestCut .held = true := by
  decide +kernel

/-- One committed panel in slot 0 and two rows of marks, the head homed. -/
def jobState : State := withRows 2 (withPanel 0 (placedPanel .committed 1500 5000) homed)

/-- An outline item of the panel in slot 0, closed, of 4 segments. -/
def closedItem : Item := ⟨0, .outline, .kiss, 0, 0, none, none, 4, 1, 0, 0, .pending⟩

/-- The worklist of window 0 with that item, to be issued from its start. -/
def oneItem : Worklist := ⟨0, [closedItem], false, ⟨some 0, 0, 0, true, false⟩, none, false, 500, 55000⟩

theorem test_hypotheses_StartCutFeedsOrSettles :
    (let s : State := { jobState with cycle := { jobState.cycle with owed := 0, remainder := 0 } }
     let t : State := { s with plan := { s.plan with worklist := some oneItem } }
     isReady t = true ∧ t.cycleSafe = true ∧ t.cycle.pointer + t.cycle.owed ≤ (t.panel 0).lastWindow t.nest.params ∧
     t.suspendPending = false ∧ 0 < t.cycle.vacSettle ∧ answers (.startCut 1) t .ok = true ∧
     endsIn (.startCut 1) t .measuring = true) ∧
    (let s := withRows 6 (withPanel 0 (placedPanel .committed 1500 155000) homed)
     let t : State := { s with cycle := { s.cycle with owed := 1, remainder := 1 } }
     isReady t = true ∧ t.cycleSafe = true ∧ t.cycle.pointer + t.cycle.owed ≤ (t.panel 0).lastWindow t.nest.params ∧
     answers (.startCut 1) t .ok = true ∧ endsIn (.startCut 1) t .feeding = true) ∧
    answers (.startCut 1) (haltedBy (faultOf .estop) homed) .faultLatched = true ∧
    answers (.startCut 1) (heldFor .recover homed) .refusedState = true ∧
    answers (.startCut 1) State.reset .notHomed = true ∧ answers (.startCut 1) (lineOn 1 homed) .guardOpen = true ∧
    answers (.startCut 1) (moving [.travel .cycle ⟨0, 0⟩] homed) .busy = true ∧
    answers (.startCut 1) homed .notFound = true := by
  decide +kernel

theorem test_hypotheses_SuspendAddsRequest :
    answers (.suspend 1) (readying (suspending homed)) .noChange = true ∧
    (let s := readying homed
     answers (.suspend 1) { s with cycle := { s.cycle with stopPending := true } } .refusedState = true ∧
     answers (.suspend 1) s .ok = true) ∧
    answers (.suspend 1) (suspendedAt .settle homed) .noChange = true ∧
    answers (.suspend 1) homed .refusedState = true ∧
    (let s := inState .feeding homed
     s.cycle.runActive = false ∧ answers (.suspend 1) s .refusedState = true) := by
  decide +kernel

theorem test_hypotheses_ResumeGoesOn :
    (let s := readying homed
     isReady s = true ∧ s.cycleSafe = true ∧ answers (.resume 1) s .refusedState = true ∧
     (suspending s).suspendPending = true ∧ (suspending s).plan.worklist = none ∧
     answers (.resume 1) (suspending s) .ok = true) ∧
    answers (.resume 1) homed .refusedState = true ∧ homed.cycleSafe = true ∧
    answers (.resume 1) (haltedBy (faultOf .estop) homed) .refusedState = true ∧
    answers (.resume 1) (lineOn 1 (heldFor .recover homed)) .guardOpen = true ∧
    (heldFor .recover homed).cycleSafe = true ∧
    answers (.resume 1) (suspendedAt .settle State.reset) .notHomed = true ∧
    (suspendedAt .settle homed).cycleSafe = true ∧ 0 < homed.cycle.vacSettle ∧
    endsIn (.resume 1) (suspendedAt .settle homed) .measuring = true ∧
    endsIn (.resume 1) (suspendedAt .feed homed) .feeding = true := by
  decide +kernel

theorem test_hypotheses_StopCutEndsRun :
    answers (.stopCut 1) homed .refusedState = true ∧ homed.cycleSafe = true ∧
    (let s := readying homed
     answers (.stopCut 1) { s with cycle := { s.cycle with stopPending := true } } .noChange = true) ∧
    endsIn (.stopCut 1) (suspendedAt .settle homed) .idle = true ∧
    endsIn (.stopCut 1) (heldFor .recover homed) .idle = true ∧
    (let s := moving [.search ⟨0, 0, 9, 9⟩] (readying homed)
     isReady s = true ∧ s.cycleSafe = true ∧ s.cycle.stopPending = false ∧ answers (.stopCut 1) s .ok = true ∧
     (after (.stopCut 1) s).map (·.cycle.stopPending) = some true) ∧
    (let s := inState .feeding (moving [.feed 9] homed)
     let t : State := { s with cycle := { s.cycle with runActive := true } }
     isReady t = true ∧ t.cycleSafe = true ∧ (after (.stopCut 1) t).map (·.cycle.stopPending) = some true) := by
  decide +kernel

theorem test_hypotheses_SkipPanelSkips :
    (let s : State := { jobState with plan := { jobState.plan with worklist := some oneItem } }
     answers (.skipPanel 1 96) s .badArg = true ∧ answers (.skipPanel 1 0) (inState .measuring s) .refusedState = true ∧
     answers (.skipPanel 1 1) s .locked = true ∧
     answers (.skipPanel 1 0) (withPanel 0 { placedPanel .committed 1500 5000 with state := .skipped } s) .noChange = true ∧
     answers (.skipPanel 1 0) (withPanel 0 { placedPanel .committed 1500 5000 with state := .cut } s) .refusedState = true ∧
     answers (.skipPanel 1 0) s .ok = true ∧ answers (.skipPanel 1 0) jobState .ok = true) := by
  decide +kernel

theorem test_hypotheses_JobClearClears :
    answers (.jobClear 1) (heldFor .recover jobState) .refusedState = true ∧
    answers (.jobClear 1) (opened 0 none homed) .refusedState = true ∧
    answers (.jobClear 1) (nesting [] homed) .nestBusy = true ∧ answers (.jobClear 1) jobState .locked = true ∧
    answers (.jobClear 1) (lineOn 4 jobState) .ok = true ∧ answers (.jobClear 1) homed .ok = true := by
  decide +kernel

/-- The settle running over rows 0 to 2, VAC_OK high. -/
def settling : State :=
  let s := lineOn 2 (readying homed)
  { s with cycle := { s.cycle with phase := .settle, settleTimer := some 800 } }

theorem test_hypotheses_SettleExpiryActs :
    settling.cycleSafe = true ∧ settling.motion.queue = [] ∧ isReady settling = true ∧
    keeps .settleExpiry homed = true ∧ homed.cycleSafe = true ∧
    (let s : State := { settling with bed := homed.bed }
     s.cycleSafe = true ∧ (s.bed.lines.get 2).taken = false ∧ endsIn .settleExpiry s .halted = true) ∧
    (suspending settling).cycleSafe = true ∧ endsIn .settleExpiry (suspending settling) .suspended = true ∧
    settling.marks.rows[0]? = some ⟨Mark.fresh, Mark.fresh⟩ ∧
    clipToBed (searchSquare 2000 0 (nominalBed settling.nest.params 0 0 .left)) = some ⟨1750, 9000, 3750, 11000⟩ ∧
    (after .settleExpiry settling).map (·.motion.queue) = some [.search ⟨1750, 9000, 3750, 11000⟩] := by
  decide +kernel

/-! ### Marks, motion and lines -/

theorem test_hypotheses_MarksGivenByHost :
    (let s : State := { withRows 3 (heldFor .markMissed homed) with
       cycle := { (heldFor .markMissed homed).cycle with pointer := 0 } }
     s.currentRows = some ⟨0, 2⟩ ∧
     answers (.markSet 1 100 0 0 0) s .badArg = true ∧ answers (.markSet 1 0 0 165001 0) s .badArg = true ∧
     answers (.markTake 1 100 1) s .badArg = true ∧ answers (.markTake 1 3 1) s .badArg = true ∧
     answers (.markSet 1 3 1 0 0) s .badArg = true ∧
     answers (.markTake 1 2 1) (inState .cutting s) .refusedState = true ∧
     answers (.markSet 1 2 1 0 0) (inState .cutting s) .refusedState = true ∧
     answers (.markTake 1 2 1) { s with motion := State.reset.motion } .notHomed = true ∧
     answers (.markTake 1 2 1) (moving [.travel .cycle ⟨0, 0⟩] s) .busy = true ∧
     answers (.markSet 1 2 0 165000 260000) s .ok = true ∧ answers (.markTake 1 0 1) s .ok = true) := by
  decide +kernel

theorem test_hypotheses_SeamAcceptedAndRemeasured :
    (let s : State := { readying homed with
       cycle := (heldFor .seamDeviation homed).cycle, bed := (heldFor .seamDeviation homed).bed }
     s.cycleSafe = true ∧ s.currentRows = some ⟨0, 2⟩ ∧ s.marks.bandsSafe = true ∧
     answers (.acceptSeam 1) homed .refusedState = true ∧ answers (.acceptSeam 1) (lineOn 1 s) .guardOpen = true ∧
     answers (.acceptSeam 1) { s with motion := State.reset.motion } .notHomed = true ∧
     answers (.acceptSeam 1) s .ok = true ∧
     answers (.remeasure 1) homed .refusedState = true ∧ answers (.remeasure 1) (lineOn 1 s) .guardOpen = true ∧
     answers (.remeasure 1) { s with motion := State.reset.motion } .notHomed = true ∧
     answers (.remeasure 1) (suspendedAt .settle (withRows 3 homed)) .ok = true ∧
     (suspendedAt .settle (withRows 3 homed)).currentRows = some ⟨0, 2⟩ ∧
     clipToBed (searchSquare 2000 0 (nominalBed s.nest.params 0 0 .left)) = some ⟨1750, 9000, 3750, 11000⟩ ∧
     (after (.remeasure 1) s).map (·.motion.queue) = some [.search ⟨1750, 9000, 3750, 11000⟩]) := by
  decide +kernel

/-- The search of a mark of rows 0 to 2 executing. -/
def searching (row : Nat) (side : Side) (attempts : Nat) : State :=
  let s := moving [.search ⟨0, 0, 100, 100⟩] (readying homed)
  { s with marks := { s.marks with
      rows := s.marks.rows.set row ⟨⟨.unread, none, none, attempts⟩, ⟨.unread, none, none, attempts⟩⟩
      flight := some ⟨row, side, attempts, ⟨0, 0, 100, 100⟩⟩ } }

theorem test_hypotheses_SearchReadsOrMissesMark :
    (let s := searching 1 .right 1
     isReady s = true ∧ s.cycleSafe = true ∧ keeps (.markSensorReport 101 0) s = true ∧
     keeps (.markSensorReport (-1 / 1000) 0) s = true ∧ (suspending s).suspendPending = true ∧
     endsIn (.markSensorReport 100 0) (suspending s) .suspended = true ∧
     (after (.markSensorReport (5 / 2) (7 / 3)) (suspending s)).map (·.marks.rows[1]?.map (·.right.measured)) =
       some (some (some ⟨⟨3, 2⟩, 0⟩)) ∧
     endsIn .searchScanEnd (suspending s) .suspended = true) ∧
    (let s := searching 2 .left 2
     isReady s = true ∧ s.cycleSafe = true ∧ endsIn .searchScanEnd s .held = true) ∧
    keeps .searchScanEnd homed = true := by
  decide +kernel

theorem test_hypotheses_CutCompletionAdvancesCursor :
    (let s := moving [.cut .kiss ⟨2000, 10000⟩ (some ⟨0, 0, 0⟩), .cut .kiss ⟨3000, 10000⟩ (some ⟨0, 0, 1⟩)] jobState
     let w : Worklist := { oneItem with issue := ⟨none, 0, 0, true, false⟩, startPassed := some 0 }
     let t : State := { s with
       cycle := { s.cycle with state := .cutting, runActive := true }, plan := { s.plan with worklist := some w } }
     isReady t = true ∧ t.cycleSafe = true ∧ t.suspendPending = false ∧ w.cursorIndex = some 0 ∧
     closedItem.segmentAfter closedItem.passDone closedItem.segDone = 0 ∧ closedItem.segDone + 1 < closedItem.segments ∧
     (⟨3000, 10000⟩ : BedPos).onBed = true ∧ endsIn .moveCompletion t .cutting = true ∧
     (after .moveCompletion t).map (fun u => (u.panel 0).state) = some .cutting ∧
     (after .moveCompletion t).map (·.motion.head) = some (some ⟨2000, 10000⟩)) := by
  decide +kernel

/-- A FEED of 1000 counts executing in FEEDING for a job, `n` counts moved. -/
def feeding (job : FeedJob) (n : Int) : State :=
  let s := inState .feeding (moving [.feed 1000] (withRows 6 homed))
  { s with
    cycle := { s.cycle with feedJob := some job }
    motion := { s.motion with commanded := some 1000, encoder := n, guardTimer := some 300 }
    bed := { s.bed with feedDrive := true } }

theorem test_hypotheses_DriveReportsFollowed :
    (let s := feeding ⟨.request, 1⟩ 5
     isReady s = true ∧ s.cycleSafe = true ∧ (after (.encoderStep false) s).map (·.motion.encoder) = some 4 ∧
     keeps (.axisPositionReport 1 2) s = true) ∧
    keeps (.encoderStep true) homed = true ∧ keeps (.axisPositionReport 1 2) homed = true ∧
    keeps (.homeFullTravel .x) homed = true ∧ keeps (.homeFullTravel .y) (feeding ⟨.run, 1⟩ 5) = true ∧
    (let s := moving [.travel .cycle ⟨0, 0⟩] homed
     isReady s = true ∧ s.cycleSafe = true ∧
     (after (.axisPositionReport 1 (-2)) s).map (·.motion.head) = some (some ⟨1, -2⟩)) ∧
    (let s := inState .homing (moving [.home] State.reset)
     let t : State := { s with motion := { s.motion with homing := some ⟨true, false⟩ } }
     isReady t = true ∧ t.cycleSafe = true ∧ (⟨true, false⟩ : Homing).home .x = true ∧
     keeps (.homeFullTravel .x) t = true ∧ keeps (.axisPositionReport 1 2) t = true ∧
     (⟨true, false⟩ : Homing).home .y = false ∧ endsIn (.homeFullTravel .y) t .halted = true) := by
  decide +kernel

theorem test_hypotheses_FeedRunsAndEnds :
    homed.cycleSafe = true ∧ answers (.feed 1 0) homed .badArg = true ∧ answers (.feed 1 9) homed .badArg = true ∧
    answers (.feed 1 8) homed .ok = true ∧ endsIn (.feed 1 1) homed .feeding = true ∧
    (let s := feeding ⟨.request, 1⟩ 900
     isReady s = true ∧ s.cycleSafe = true ∧ s.motion.guardTimer ≠ none ∧ endsIn .feedGuardExpiry s .halted = true ∧
     s.motion.params.slipTol = 100 ∧ endsIn .feedDriveDone s .idle = true) ∧
    endsIn .feedDriveDone (feeding ⟨.request, 1⟩ 1100) .idle = true ∧
    endsIn .feedDriveDone (feeding ⟨.request, 1⟩ 1101) .halted = true ∧
    (let s := feeding ⟨.request, 1⟩ 1000
     keeps .feedGuardExpiry { s with motion := { s.motion with guardTimer := none } } = true) := by
  decide +kernel

theorem test_hypotheses_FilteredLineChanges :
    keeps (.lineWireChange 5 false) homed = true ∧ keeps (.filterExpiry 5) homed = true ∧
    (let l : Line := ⟨false, true, .f2, some 2, true, false, false, false⟩
     let s : State := { homed with bed := { homed.bed with lines := homed.bed.lines.set 4 l } }
     isReady s = true ∧ (s.bed.lines.get 4).timer ≠ none ∧ (s.bed.lines.get 4).wire ≠ (s.bed.lines.get 4).taken ∧
     (after (.filterExpiry 4) s).map (·.link.outbound.length) = some 2 ∧
     (after (.lineWireChange 4 false) s).map (fun t => (t.bed.lines.get 4).timer) = some none) ∧
    (after (.lineWireChange 5 true) homed).map (fun t => (t.bed.lines.get 5).timer) = some (some 8) := by
  decide +kernel

/-- A line whose filter timer runs toward a level. -/
def turning (i : Fin 8) (level : Bool) (s : State) : State :=
  { s with bed := { s.bed with
      lines := s.bed.lines.set i ⟨!level, level, .f8, some 8, false, false, false, false⟩ } }

theorem test_hypotheses_LinesStopAndFault :
    (let s := readying homed
     isReady s = true ∧ s.cycleSafe = true ∧ (s.bed.lines.get 0).wire = (s.bed.lines.get 0).taken ∧
     (s.bed.lines.get 0).taken = false ∧ (s.bed.lines.get 0).riseEn = false ∧
     endsIn (.lineWireChange 0 true) s .halted = true) ∧
    (let s := haltedBy { faultOf .guard with followOn := 255 } homed
     isReady s = true ∧ s.cycleSafe = true ∧
     (after (.lineWireChange 0 true) s).map (fun t => t.cycle.fault.map (·.followOn)) = some (some 255)) ∧
    (lineOn 0 homed).cycleSafe = true ∧ ((lineOn 0 homed).bed.lines.get 0).taken = true ∧
    endsIn (.lineWireChange 0 false) (lineOn 0 homed) .idle = true ∧
    (let s := turning 1 true (moving [.search ⟨0, 0, 9, 9⟩] (readying homed))
     isReady s = true ∧ s.cycleSafe = true ∧ endsIn (.filterExpiry 1) s .halted = true) ∧
    endsIn (.filterExpiry 1) (turning 1 true homed) .idle = true ∧
    (let s := turning 2 false (suspendedAt .settle homed)
     isReady s = true ∧ s.cycleSafe = true ∧ endsIn (.filterExpiry 2) s .halted = true) ∧
    endsIn (.filterExpiry 2) (turning 2 false (heldFor .recover homed)) .held = true ∧
    (let s := turning 3 true (feeding ⟨.run, 1⟩ 5)
     isReady s = true ∧ s.cycleSafe = true ∧ endsIn (.filterExpiry 3) s .halted = true) ∧
    endsIn (.filterExpiry 3) (turning 3 true (readying homed)) .measuring = true := by
  decide +kernel

/-! ### Further clauses: the control link, the parameters and the panel commands -/

theorem test_hypotheses_RecordTakeDelivers_marked :
    parseBody [0x7F, 7, 0, 0] = .unknownKind ∧ parseBody [0x0B, 7, 0, 0, 0] = .badLength ∧
    (after .recordTake (arriving ⟨[0x7F, 7, 0, 0], none, some 3⟩ 22)).map
      (fun t => t.link.outbound.drop 22 |>.map (·.kind)) = some [0x62, 0xFF] ∧
    (after .recordTake (arriving ⟨[0x7F, 7, 0, 0], none, some 3⟩ 22)).map
      (fun t => t.link.outbound.drop 22 |>.head?.map (·.payload)) = some (some [0, 3, 0, 0]) ∧
    ((after .recordTake (arriving ⟨[0x0B, 7, 0, 0, 0], none, some 3⟩ 22)).map
      (fun t => t.link.outbound.drop 22 |>.map (·.kind))) = some [0x62, 0x8B] := by
  decide +kernel

theorem test_hypotheses_QueueRoomRules_full :
    (atN 24).link.formed = [] ∧ requestBody (.status 7) = some [0x0B, 7, 0, 0] ∧
    (after (.status 7) (atN 24)).map (·.link.inbound) = some [⟨[0x0B, 7, 0, 0], none, none⟩] := by
  decide +kernel

theorem test_hypotheses_TableReads_end :
    after (.readNext 1 9) (reading ⟨.panels, 0, 0, 7, true⟩) =
      some ((reading ⟨.panels, 0, 0, 7, true⟩).queueReply 0x07 1 .ok [0, 0, 0, 7, 0x80] none) ∧
    (after (.readTable 1 7 0 3 9) (atN 23)).map (·.link.cursor) = some (some ⟨.fault, 0, 0, 3, true⟩) ∧
    (⟨.inputs, 0, 0, 1, false⟩ : TableCursor).table = .inputs ∧
    (after (.readTable 1 5 0 1 9) (atN 23)).map (·.link.cursor) = some (some ⟨.inputs, 0, 0, 1, true⟩) ∧
    (after (.readNext 1 9) (reading ⟨.panels, 0, 0, 95, false⟩)).map (·.link.cursor) =
      some (some ⟨.panels, 0, 0, 96, true⟩) := by
  decide +kernel

theorem test_hypotheses_RangeParametersWritten_lines :
    answers (.setParam 1 0x7F 0 0) (atN 23) .badArg = true ∧ answers (.setParam 1 0x28 1 0) (atN 23) .badArg = true ∧
    answers (.setParam 1 0x30 4 0) (atN 23) .badArg = true ∧ answers (.setParam 1 0x30 3 2) (atN 23) .badArg = true ∧
    answers (.setParam 1 0x30 3 (-1)) (atN 23) .badArg = true ∧
    (let s := State.reset
     let v : Word := if s.bed.vacSafe.get 3 = .hold then 0 else 1
     answers (.setParam 1 0x30 3 v) s .noChange = true ∧ answers (.setParam 1 0x30 3 (1 - v)) s .ok = true) ∧
    answers (.setParam 1 0x32 7 2) (atN 23) .badArg = true ∧ answers (.setParam 1 0x33 0 (-1)) (atN 23) .badArg = true ∧
    answers (.setParam 1 0x32 7 0) (atN 23) .noChange = true ∧ answers (.setParam 1 0x33 0 1) (atN 23) .ok = true ∧
    answers (.setParam 1 0x31 7 4) (atN 23) .badArg = true ∧ answers (.setParam 1 0x31 7 2) (atN 23) .noChange = true ∧
    answers (.setParam 1 0x31 7 3) (atN 23) .ok = true ∧
    (let s : State := { State.reset with bed := { State.reset.bed with
       lines := State.reset.bed.lines.set 4 ⟨false, true, .f8, some 8, true, false, false, false⟩ } }
     (after (.setParam 1 0x31 4 3) s).map (fun t => (t.bed.lines.get 4).timer) = some (some 32) ∧
     (after (.setParam 1 0x31 4 0) s).map (fun t => (t.bed.lines.get 4).taken) = some true ∧
     (after (.setParam 1 0x31 4 0) s).map (·.link.outbound.map (·.kind)) = some [0x60, 0x84, 0x69]) := by
  decide +kernel

theorem test_hypotheses_NestStartsRun_envelope :
    (let s := withPanel 0 (placedPanel .pinned 2000 5000) State.reset
     s.nest.params.marginSide < s.nest.params.mediaWidth - s.nest.params.marginSide ∧
     (s.panel 0).ew .r0 + s.nest.params.gap = 1600 ∧
     s.initialEnvelope = [⟨1500, 500, 5000⟩, ⟨2000, 1600, 6600⟩, ⟨3600, 131900, 5000⟩]) ∧
    State.reset.initialEnvelope = [⟨1500, 134000, 5000⟩] := by
  decide +kernel

theorem test_hypotheses_PlacingChoosesLowestTop_height :
    coversRoll 1500 135500 [⟨1500, 1000, 5000⟩, ⟨2500, 133000, 6000⟩] ∧
    heightOver [⟨1500, 1000, 5000⟩, ⟨2500, 133000, 6000⟩] 1500 2500 = 5000 ∧
    heightOver [⟨1500, 1000, 5000⟩, ⟨2500, 133000, 6000⟩] 2499 2501 = 6000 := by
  refine ⟨?_, by decide +kernel, by decide +kernel⟩
  simp [coversRoll]

theorem test_hypotheses_PlaceTakesPlacement_refused :
    (let s := withPanel 0 (placedPanel .pinned 1500 5000) (atN 23)
     answers (.place 1 0 0 1500 5000) s .noChange = true ∧
     answers (.place 1 0 0 1501 5000) s .ok = true ∧
     answers (.place 1 0 0 1500 5000) (withPanel 0 (placedPanel .free 1500 5000) s) .ok = true ∧
     answers (.place 1 0 0 1500 5000) (nesting [] s) .nestBusy = true ∧
     answers (.place 1 1 0 1500 5000) (opened 0 none s) .outlineOpen = true ∧
     answers (.place 1 96 0 1500 5000) s .badArg = true ∧ answers (.place 1 0 89 1500 5000) s .badArg = true ∧
     answers (.unplace 1 96) s .badArg = true ∧
     answers (.commit 1 0 []) (nesting [] s) .nestBusy = true ∧
     answers (.commit 1 1 (List.replicate 240 0)) (opened 0 none s) .outlineOpen = true) := by
  decide +kernel

/-! ### Further clauses: the cut cycle -/

/-- The marks of rows 0 and 1 READ at their nominal positions in window 0, their band OK. -/
def measured (s : State) : State :=
  let at0 (row : Nat) (side : Side) : Mark := ⟨.read, some ⟨nominalBed s.nest.params 0 row side, 0⟩, none, 1⟩
  { s with marks := { s.marks with
      rows := [⟨at0 0 .left, at0 0 .right⟩, ⟨at0 1 .left, at0 1 .right⟩], bands := [.ok], span := some ⟨0, 1⟩ } }

/-- A worklist held. -/
def planning (w : Worklist) (s : State) : State := { s with plan := { s.plan with worklist := some w } }

/-- The job with its marks measured and its item's start passed, in a run. -/
def issuing : State :=
  let s := planning { oneItem with startPassed := some 0 } (measured jobState)
  { s with cycle := { s.cycle with runActive := true } }

/-- The item of the job, to be begun. -/
def jobStart : ItemStart := ⟨0, 0, 0, some 0⟩

/-- Breakpoint 2 on every item, with an action, and the step flag. -/
def breaking (a : BreakAction) (s : State) : State :=
  { s with cycle := { s.cycle with breakpoints := s.cycle.breakpoints.set 2 ⟨.item, a⟩ } }

theorem test_hypotheses_SetBreakWrites_itemStart :
    (⟨.panelStart 0, .halt⟩ : Breakpoint).hits oneItem jobStart = true ∧
    (⟨.windowStart 0, .halt⟩ : Breakpoint).hits oneItem jobStart = true ∧
    (⟨.band 0, .notify⟩ : Breakpoint).hits oneItem jobStart = true ∧
    (⟨.panelStart 0, .halt⟩ : Breakpoint).hits { oneItem with items := [{ closedItem with state := .done }] }
      jobStart = false ∧
    ((breaking .halt issuing).testItemStart oneItem jobStart).2 = false ∧
    ((breaking .halt issuing).testItemStart oneItem jobStart).1.cycle.halts = 4 ∧
    ((breaking .notify issuing).testItemStart oneItem jobStart).2 = true ∧
    ((breaking .notify issuing).testItemStart oneItem jobStart).1.link.formed = [breakNotice 4 0 0 0] ∧
    oneItem.issue.travelDue = true ∧ oneItem.issue.reported = false ∧ closedItem.passDone = 0 ∧
    closedItem.segDone = 0 ∧ oneItem.startPassed ≠ some 0 ∧
    ((breaking .halt issuing).issueItem oneItem 0 closedItem).2 = .stopped ∧
    (suspending (moving [.travel .cycle ⟨0, 0⟩] issuing)).suspendPending = true ∧
    (suspending (moving [.travel .cycle ⟨0, 0⟩] issuing)).suspendIfDrained.cycle.state = .suspended := by
  decide +kernel

theorem test_hypotheses_HomeAndJogMove_lines :
    (let s := lineOn 6 (atN 23)
     isReady s = true ∧ s.cycleSafe = true ∧ endsIn (.home 1) s .homing = true ∧
     (after (.home 1) s).map (·.motion.homing) = some (some ⟨true, false⟩) ∧
     endsIn (.home 1) (lineOn 7 s) .idle = true ∧
     (after (.home 1) (lineOn 7 s)).map (·.motion.head) = some (some ⟨0, 0⟩)) ∧
    (let s (h : Homing) (i : Fin 8) : State :=
       let t := turning i true (inState .homing (moving [.home] State.reset))
       { t with motion := { t.motion with homing := some h } }
     isReady (s ⟨false, true⟩ 6) = true ∧ (s ⟨false, true⟩ 6).cycleSafe = true ∧
     endsIn (.filterExpiry 6) (s ⟨false, true⟩ 6) .idle = true ∧
     endsIn (.filterExpiry 7) (s ⟨true, false⟩ 7) .idle = true ∧
     (after (.filterExpiry 7) (s ⟨false, false⟩ 7)).map (·.motion.homing) = some (some ⟨false, true⟩) ∧
     (after (.filterExpiry 6) (s ⟨false, false⟩ 6)).map (·.motion.homing) = some (some ⟨true, false⟩)) := by
  decide +kernel

theorem test_hypotheses_TestCutAndReturn_refused :
    answers (.testCut 1 0 500 0 0) (haltedBy (faultOf .estop) homed) .faultLatched = true ∧
    answers (.testCut 1 0 500 0 0) (readying homed) .refusedState = true ∧
    answers (.testCut 1 2 500 0 0) homed .badArg = true ∧ answers (.testCut 1 0 499 0 0) homed .badArg = true ∧
    answers (.testCut 1 0 2501 0 0) homed .badArg = true ∧ answers (.testCut 1 0 500 164501 0) homed .badArg = true ∧
    answers (.testCut 1 0 500 0 259501) homed .badArg = true ∧
    answers (.testCut 1 0 500 164500 259500) State.reset .notHomed = true ∧
    answers (.testCut 1 0 500 0 0) (lineOn 1 homed) .guardOpen = true ∧
    answers (.testCut 1 0 500 0 0) (moving [.travel .cycle ⟨0, 0⟩] homed) .busy = true := by
  decide +kernel

/-- A committed panel in each of the 96 slots, its outline three times to and fro across the v given: 288 items. -/
def longJob (v : Nat) : State :=
  let p : Panel := { placedPanel .committed 1500 (v - 1000) with bbox := some ⟨0, 0, 1000, 2000⟩, vertexCount := 6 }
  let s := withRows 5 homed
  { s with store := { s.store with
      panels := Table.fill 96 p
      free := (List.range 512).drop 1
      contour := [(1, ⟨1000, 2000⟩), (3, ⟨1000, 2000⟩), (5, ⟨1000, 2000⟩)] } }

theorem test_hypotheses_StartCutFeedsOrSettles_built :
    (let s := jobState
     isReady s = true ∧ s.cycleSafe = true ∧ s.plan.worklist = none ∧ s.builtItems 0 = [closedItem] ∧
     endsIn (.startCut 1) s .measuring = true) ∧
    (let s := withRows 6 (withPanel 0 { placedPanel .committed 1500 155000 with weed := false } homed)
     isReady s = true ∧ s.cycleSafe = true ∧ s.builtItems 0 = [] ∧ 0 + 1 ≤ (s.panel 0).lastWindow s.nest.params ∧
     endsIn (.startCut 1) s .feeding = true) ∧
    (let s := longJob 105000
     (s.builtItems 0).length = 288 ∧ isReady s = true ∧ s.cycleSafe = true ∧ endsIn (.startCut 1) s .held = true) := by
  decide +kernel

theorem test_hypotheses_StartCutFeedsOrSettles_plan :
    ((withRows 2 homed).marks.openWindow 0 (some ⟨0, 1⟩) none).bands = [.unchecked] ∧
    ((measured jobState).marks.openWindow 1 (some ⟨0, 1⟩) (some 7)).seam = some ⟨1, 7⟩ ∧
    oneItem.cursorIndex = some 0 ∧
    jobState.selected 0 = [0] ∧ (jobState.planPanel 0 jobState.lastRowV 0).isSome = true ∧
    (jobState.planPanel 0 jobState.lastRowV 1) = none ∧ piecesOf ⟨5000, 155000, false⟩ doorOutline ≠ [] ∧
    (placedPanel .committed 1500 5000).firstWindow LayoutParams.reset = 0 ∧
    0 < (placedPanel .committed 1500 5000).eh .r0 ∧
    weedBorder LayoutParams.reset 500 55000 (placedPanel .committed 1500 5000) =
      [⟨1000, 5000⟩, ⟨3000, 5000⟩, ⟨3000, 6500⟩, ⟨1000, 6500⟩] := by
  decide +kernel

theorem test_hypotheses_ResumeGoesOn_readying :
    (let s := suspendedAt .continue issuing
     isReady s = true ∧ s.cycleSafe = true ∧ (∀ i, 0 ≤ i → i < 1 → s.marks.usable i = true) ∧
     s.marks.seam = none ∧ s.correct (s.itemPoint oneItem closedItem 0) = some ⟨3500, 10000⟩ ∧
     endsIn (.resume 1) s .cutting = true ∧
     (let t : State := { s with marks := { s.marks with
        geomTol := 0, rows := s.marks.rows.set 1 ⟨(s.marks.rows.getD 0 ⟨Mark.fresh, Mark.fresh⟩).left,
          (s.marks.rows.getD 0 ⟨Mark.fresh, Mark.fresh⟩).right⟩ } }
      (t.marks.checkSpan t.nest.params).firstFailure ≠ none ∧ endsIn (.resume 1) t .cutting = true)) ∧
    (let s := heldFor .markMissed (readying homed)
     let t : State := { s with marks := { s.marks with
       rows := s.marks.rows.set 0 ⟨⟨.missed, none, none, 2⟩, Mark.fresh⟩ } }
     isReady t = true ∧ t.cycleSafe = true ∧ endsIn (.resume 1) t .measuring = true ∧
     (after (.resume 1) t).map (·.motion.queue) = some [.search ⟨1750, 9000, 3750, 11000⟩]) := by
  decide +kernel

theorem test_hypotheses_ResumeGoesOn_others :
    (let s := suspending (planning { oneItem with startPassed := some 0, stopped := true } (inState .cutting issuing))
     isReady s = true ∧ s.cycleSafe = true ∧ s.suspendPending = true ∧ endsIn (.resume 1) s .cutting = true ∧
     (after (.resume 1) s).map (·.motion.queue.head?) = some (some (.travel .planner ⟨3500, 10000⟩))) ∧
    (let s := heldFor .recover issuing
     isReady s = true ∧ s.cycleSafe = true ∧ s.suspendPending = false ∧ endsIn (.resume 1) s .measuring = true ∧
     (let t : State := { s with cycle := { s.cycle with owed := 1, remainder := 300 } }
      endsIn (.resume 1) t .feeding = true)) ∧
    (let s := heldFor .planFull issuing
     isReady s = true ∧ s.cycleSafe = true ∧ endsIn (.resume 1) s .measuring = true) ∧
    (let s := heldFor .planFull (longJob 105000)
     isReady s = true ∧ s.cycleSafe = true ∧ endsIn (.resume 1) s .held = true) := by
  decide +kernel

theorem test_hypotheses_StopCutEndsRun_atOnce :
    (let s := moving [.travel .cycle ⟨0, 0⟩, .search ⟨0, 0, 9, 9⟩, .travel .planner ⟨0, 0⟩] (readying homed)
     isReady s = true ∧ s.cycleSafe = true ∧ s.cycle.stopPending = false ∧ endsIn (.stopCut 1) s .idle = true ∧
     (after (.stopCut 1) s).map (·.motion.queue) = some [.travel .cycle ⟨0, 0⟩, .search ⟨0, 0, 9, 9⟩]) ∧
    (let s := settling
     isReady s = true ∧ s.cycleSafe = true ∧ s.motion.queue = [] ∧ endsIn (.stopCut 1) s .idle = true) ∧
    (let mu := (measured jobState).marks
     (mu.invalidate (some ⟨0, 1⟩)).bands = [.unchecked] ∧ (mu.invalidate none).bands = mu.bands) := by
  decide +kernel

theorem test_hypotheses_SkipPanelSkips_planFull :
    (let s := heldFor .planFull jobState
     isReady s = true ∧ s.cycle.hold = some .planFull ∧ answers (.skipPanel 1 0) s .ok = true ∧
     (after (.skipPanel 1 0) s).map (·.plan.worklist.isSome) = some true ∧
     (after (.skipPanel 1 0) (withPanel 1 (placedPanel .committed 9000 5000) s)).map
       (·.plan.worklist.map (·.items.length)) = some (some 1)) ∧
    (let s := heldFor .planFull (longJob 105000)
     isReady s = true ∧ (after (.skipPanel 1 1) s).map (·.plan.worklist) = some none) := by
  decide +kernel

/-! ### Further clauses: marks, completions, feeds and lines -/

/-- The search of the last UNREAD mark, RIGHT of row 1, executing over its square; a pending seam may be given. -/
def lastSearch (seam : Option SeamPending) : State :=
  let s := measured (moving [.search ⟨137250, 59000, 139250, 61000⟩] (readying issuing))
  let s := s.withMarks (s.marks.setMark 1 .right ⟨.unread, none, none, 1⟩)
  s.withMarks { s.marks with flight := some ⟨1, .right, 1, ⟨137250, 59000, 139250, 61000⟩⟩, seam := seam }

theorem test_hypotheses_SearchReadsOrMissesMark_goesOn :
    (let s := searching 0 .left 1
     isReady s = true ∧ s.cycleSafe = true ∧ s.suspendPending = false ∧ s.cycle.stopPending = false ∧
     (after (.markSensorReport 100 0) s).map (fun t => t.marks.flight.map (·.side)) = some (some .right) ∧
     s.marks.firstIn .unread = some (0, .left) ∧
     (after .searchScanEnd s).map (fun t => t.marks.flight.map (·.attempt)) = some (some 2)) ∧
    (let s := lastSearch none
     isReady s = true ∧ s.cycleSafe = true ∧ s.marks.firstIn .unread = some (1, .right) ∧
     endsIn (.markSensorReport 138250 60000) s .cutting = true ∧
     endsIn (.markSensorReport 139250 61000) s .held = true) := by
  decide +kernel

/-- Row 0 with previous positions of window 0, in window 1, the left 30 counts off. -/
def seamed : MarkUnit :=
  let m (x y : Int) : Mark := ⟨.read, some ⟨⟨x, 10000⟩, 1⟩, some ⟨⟨y, 60000⟩, 0⟩, 1⟩
  { MarkUnit.reset with
    rows := [⟨m 2750 2780, m 138250 138250⟩, ⟨m 2750 2750, m 138250 138250⟩], bands := [.fail .lowerWidth 9]
    span := some ⟨0, 1⟩, seam := some ⟨1, 50000⟩ }

theorem test_hypotheses_SearchReadsOrMissesMark_checks :
    { seamed with seamTol := 30 }.seamFailure = none ∧ { seamed with seamTol := 29 }.seamFailure = some (900, .left) ∧
    seamed.firstFailure = some (0, .lowerWidth, 9) ∧ seamed.firstIn .missed = none ∧
    seamed.firstIn .read = some (0, .left) ∧ seamed.bands.length = 1 ∧
    0 < LayoutParams.reset.spacing ∧ 0 < LayoutParams.reset.markPitch ∧
    geometryOf LayoutParams.reset 100 ⟨0, 0⟩ ⟨135500, 0⟩ ⟨0, 50000⟩ ⟨135500, 50000⟩ = .ok ∧
    geometryOf LayoutParams.reset 100 ⟨0, 0⟩ ⟨0, 0⟩ ⟨0, 50000⟩ ⟨135500, 50000⟩ = .fail .lowerWidth 0 ∧
    geometryOf LayoutParams.reset 100 ⟨0, 0⟩ ⟨135500, 0⟩ ⟨0, 0⟩ ⟨0, 50000⟩ = .fail .upperWidth 0 ∧
    geometryOf LayoutParams.reset 100 ⟨0, 0⟩ ⟨135500, 0⟩ ⟨0, 25000⟩ ⟨135500, 50000⟩ = .fail .leftHeight 500000 ∧
    geometryOf LayoutParams.reset 100 ⟨0, 0⟩ ⟨135500, 0⟩ ⟨0, 50000⟩ ⟨135500, 0⟩ = .fail .rightHeight 0 := by
  decide +kernel

/-- The last segment of the one item executing, `passes` to make. -/
def lastSegment (passes : Nat) (rest : List Entry) : State :=
  let it : Item := { closedItem with segDone := 3, passes := passes, state := .active }
  let w : Worklist := { oneItem with items := [it], issue := ⟨none, 0, 0, true, false⟩ }
  let s := planning w (moving (.cut .kiss ⟨2000, 10000⟩ (some ⟨0, 0, 3⟩) :: rest) issuing)
  let s := withPanel 0 { placedPanel .committed 1500 5000 with state := .cutting, windowsLeft := some 1 } s
  inState .cutting s

theorem test_hypotheses_CutCompletionAdvancesCursor_ends :
    (let s := lastSegment 2 [.cut .kiss ⟨3000, 10000⟩ none]
     isReady s = true ∧ s.cycleSafe = true ∧ s.suspendPending = false ∧
     (after .moveCompletion s).map (·.plan.worklist.map (·.items.map (·.passDone))) = some (some [1])) ∧
    (let s := lastSegment 1 []
     isReady s = true ∧ s.cycleSafe = true ∧ endsIn .moveCompletion s .idle = true ∧
     (after .moveCompletion s).map (·.marks) = some s.marks ∧
     (after .moveCompletion s).map (fun t => (t.panel 0).state) = some .cut ∧
     (let t : State := { s with cycle := { s.cycle with stopPending := true } }
      t.cycleSafe = true ∧ endsIn .moveCompletion t .idle = true ∧
      (after .moveCompletion t).map (·.marks.bands) = some [.unchecked]) ∧
     (let t := withPanel 1 (placedPanel .committed 1500 155000) s
      isReady t = true ∧ t.cycleSafe = true ∧ 1 ≤ (t.panel 1).lastWindow t.nest.params ∧
      endsIn .moveCompletion t .feeding = true ∧ endsIn .moveCompletion (suspending t) .suspended = true)) ∧
    (let s := lastSegment 1 []
     s.completeWindow.2 = false ∧ (s.completeWindow.1.link.formed.map (·.kind)).length = 3 ∧
     (planning { oneItem with completed := true } s).completeWindow.1.link.formed.length = 2) ∧
    bandOf LayoutParams.reset ⟨0, 1⟩ 55000 = some 0 ∧ bandOf LayoutParams.reset ⟨0, 1⟩ 55001 = none ∧
    correctIn LayoutParams.reset (measured jobState).marks 0 ⟨750, 5000⟩ = some ⟨2750, 10000⟩ ∧
    (measured jobState).correct ⟨750, 5000⟩ = some ⟨2750, 10000⟩ ∧ (measured jobState).correct ⟨750, 4999⟩ = none ∧
    jobState.correct ⟨750, 5000⟩ = none := by
  decide +kernel

theorem test_hypotheses_FeedRunsAndEnds_run :
    answers (.feed 1 1) (haltedBy (faultOf .estop) homed) .faultLatched = true ∧
    answers (.feed 1 1) (heldFor .recover homed) .refusedState = true ∧
    answers (.feed 1 8) (lineOn 1 homed) .guardOpen = true ∧
    answers (.feed 1 8) (moving [.travel .cycle ⟨0, 0⟩] homed) .busy = true ∧
    (lineOn 3 homed).cycleSafe = true ∧ endsIn (.feed 1 1) (lineOn 3 homed) .halted = true ∧
    (let s := withPanel 0 (placedPanel .committed 1500 155000) (feeding ⟨.run, 1⟩ 900)
     isReady s = true ∧ s.cycleSafe = true ∧ s.cycle.pointer < s.windowCount ∧ (s.builtItems 1).length = 1 ∧
     endsIn .feedDriveDone s .measuring = true ∧ endsIn .feedDriveDone (suspending s) .suspended = true ∧
     (let t : State := { s with cycle := { s.cycle with stopPending := true, runActive := true } }
      t.cycleSafe = true ∧ endsIn .feedDriveDone t .idle = true)) ∧
    (let s := inState .idle (withPanel 0 (placedPanel .committed 1500 155000) (feeding ⟨.owed, 1⟩ 1100))
     isReady s = true ∧ s.cycle.pointer < s.windowCount ∧ endsIn .feedDriveDone s .idle = true ∧
     (after .feedDriveDone s).map (·.cycle.pointer) = some 1) := by
  decide +kernel

theorem test_hypotheses_FeedRunsAndEnds_full :
    (let s : State := { feeding ⟨.run, 1⟩ 1000 with store := (longJob 205000).store }
     isReady s = true ∧ s.cycleSafe = true ∧ s.cycle.pointer < s.windowCount ∧ (s.builtItems 1).length = 288 ∧
     endsIn .feedDriveDone s .held = true) := by
  decide +kernel

theorem test_hypotheses_FilteredLineChanges_none :
    (let s : State := { homed with bed := { homed.bed with
       lines := homed.bed.lines.set 4 ⟨false, false, .none, none, true, false, false, false⟩ } }
     isReady s = true ∧ (s.bed.lines.get 4).filter = .none ∧ (s.bed.lines.get 4).wire ≠ true ∧
     (after (.lineWireChange 4 true) s).map (·.link.outbound.length) = some 2) := by
  decide +kernel

theorem test_hypotheses_LinesStopAndFault_pedal :
    endsIn (.filterExpiry 5) (turning 5 true homed) .idle = true ∧ isReady (turning 5 true homed) = true ∧
    (turning 5 true homed).cycleSafe = true ∧
    (let s := turning 5 true (suspendedAt .settle homed)
     isReady s = true ∧ s.cycleSafe = true ∧ endsIn (.filterExpiry 5) s .measuring = true ∧
     endsIn (.filterExpiry 5) (lineOn 1 s) .suspended = true) ∧
    endsIn (.filterExpiry 5) (turning 5 true (heldFor .recover issuing)) .measuring = true ∧
    (let rising (i : Fin 8) (s : State) : State := { s with bed := { s.bed with
       lines := s.bed.lines.set i
         ⟨false, decide (i ≠ 0), .f8, if i = 0 then none else some 8, true, false, false, false⟩ } }
     isReady (rising 0 homed) = true ∧ (rising 0 homed).cycleSafe = true ∧
     (after (.lineWireChange 0 true) (rising 0 homed)).map (fun t => t.link.outbound.drop 1 |>.map (·.kind)) =
       some [0x69, 0x68] ∧
     (let s := rising 1 (moving [.travel .cycle ⟨0, 0⟩] homed)
      isReady s = true ∧ s.cycleSafe = true ∧ endsIn (.filterExpiry 1) s .halted = true) ∧
     (let s := rising 3 (feeding ⟨.run, 1⟩ 5)
      isReady s = true ∧ s.cycleSafe = true ∧ s.feedExecuting = true ∧ endsIn (.filterExpiry 3) s .halted = true)) := by
  decide +kernel

/-! ### Further clauses: records, issuing, takes -/

theorem test_hypotheses_ReadsAndTheirWidths_fields :
    (let s := inState .testcut (moving [.cut .thru ⟨5, 6⟩ none] homed)
     (statusData s).take 18 = [8, 0, 0, 0, 0, 0, 4, 0, 0, 0, 0, 0, 0, 0, 1, 1, 0, 0]) ∧
    (statusData (suspendedAt .feed State.reset)).take 7 = [5, 0, 0, 0, 1, 2, 2] ∧
    ((statusData State.reset).drop 16).take 8 = List.replicate 8 0 ∧
    (identData State.reset).drop 64 = [2, 0] ∧
    ((panelEntry 95 (placedPanel .committed 1500 5000)).drop 28).take 10 = [0, 0, 5, 220, 0, 0, 19, 136, 0, 0] ∧
    (panelEntry 0 { loadedPanel with label := List.replicate 12 65 })[53]? = some 65 ∧
    ((panelEntry 0 Panel.emptyRecord).drop 12).take 25 = List.replicate 25 0 ∧
    (markEntry LayoutParams.reset 1 .right ⟨.read, some ⟨⟨-1, 256⟩, 2⟩, none, 1⟩).drop 16 =
      [255, 255, 255, 255, 0, 0, 1, 0, 0, 0, 0, 0, 0, 0, 0, 0] ∧
    ((itemEntry 256 { closedItem with entry := some ⟨1, 2⟩ }).drop 16).take 8 = [0, 0, 0, 1, 0, 0, 0, 2] ∧
    (faultEntryBytes { faultOf .motionLimit with detail := .limit .search ⟨3, -1⟩ true, itemSlot := some (256, 95) }).take
      12 = [6, 3, 0, 130, 0, 0, 0, 1, 1, 0, 95, 0] ∧
    (measured jobState).marks.rows.length = 2 ∧
    bandEntry (measured jobState).marks 0 .ok = [0, 1, 0, 1, 1, 1, 1, 1, 0, 0, 0, 0] ∧
    bandEntry (measured jobState).marks 0 (.fail .rightHeight 1000001) = [0, 2, 3, 1, 1, 1, 1, 1, 0, 15, 66, 65] := by
  decide +kernel

theorem test_hypotheses_WatchAndItsTimer_contents :
    (let seen (item : WatchItem) (s : State) : List Byte :=
       watchContents { s with link := { s.link with watch := ⟨item, 95, 100⟩ } }
     seen .off homed = [] ∧ seen .position homed = [3, 0, 0, 0, 3, 232, 0, 0, 3, 232] ∧
     seen .position State.reset = List.replicate 10 0 ∧
     seen .cycle (inState .cutting issuing) = [3, 0, 0, 0, 1, 1, 0, 0] ∧
     seen .cycle (planning { oneItem with items := [{ closedItem with state := .done }, closedItem] } issuing) =
       [0, 0, 0, 0, 1, 1, 0, 1] ∧
     seen .cycle (planning { oneItem with items := [{ closedItem with state := .done }] } issuing) =
       [0, 0, 0, 0, 1, 0, 0, 0] ∧
     seen .queues issuing = [0, 1, 0, 0, 0, 1, 1, 255] ∧ seen .queues State.reset = [0, 1, 0, 0, 0, 0, 2, 0] ∧
     seen .panel State.reset = panelEntry 95 Panel.emptyRecord) := by
  decide +kernel

/-- A planner TRAVEL executing in CUTTING before `rest`, the issue pointer and the items given. -/
def issuingAt (p : IssuePointer) (items : List Item) (rest : List Entry) : State :=
  inState .cutting (moving (.travel .planner ⟨7, 8⟩ :: rest)
    (planning { oneItem with items := items, issue := p, startPassed := some 0 } issuing))

/-- `n` CUT entries of the planner. -/
def cuts (n : Nat) : List Entry := List.replicate n (.cut .thru ⟨3000, 10000⟩ (some ⟨9, 0, 0⟩))

/-- What the completion of the move leaves: the entries queued, the last of them, the issue pointer. -/
def issues (s : State) (n : Nat) (e : Entry) (p : IssuePointer) : Bool := match after .moveCompletion s with
  | some t => t.motion.queue.length == n && t.motion.queue.getLast? == some e &&
    t.plan.worklist.map (·.issue) == some p
  | none => false

theorem test_hypotheses_CutCompletionAdvancesCursor_issues :
    (let s := issuingAt ⟨some 0, 0, 0, true, false⟩ [closedItem] (cuts 31)
     isReady s = true ∧ s.cycleSafe = true ∧ s.suspendPending = false ∧ s.motion.homed = true ∧
     (⟨3000, 10000⟩ : BedPos).onBed = true ∧ s.motion.queue.length = 32 ∧ oneItem.cursorIndex = some 0 ∧
     (after .moveCompletion s).map (·.motion.head) = some (some ⟨7, 8⟩) ∧
     issues s 32 (.travel .planner ⟨3500, 10000⟩) ⟨some 0, 0, 0, false, false⟩ = true ∧
     issues (planning { oneItem with startPassed := none } s) 32 (.travel .planner ⟨3500, 10000⟩)
       ⟨some 0, 0, 0, false, false⟩ = true) := by
  decide +kernel

theorem test_hypotheses_CutCompletionAdvancesCursor_issuesCut :
    (let s := issuingAt ⟨some 0, 0, 3, false, false⟩
     let it : Item := closedItem
     let cut (n : Nat) : Entry := .cut .kiss ⟨3500, 10000⟩ (some ⟨0, 0, n⟩)
     let stays : Entry := .cut .thru ⟨3000, 10000⟩ (some ⟨9, 0, 0⟩)
     issues (issuingAt ⟨some 0, 0, 1, false, false⟩ [it] (cuts 31)) 32 (cut 1) ⟨some 0, 0, 2, false, false⟩ = true ∧
     issues (s [{ it with passes := 2 }] (cuts 31)) 32 (cut 3) ⟨some 0, 1, 0, false, false⟩ = true ∧
     issues (s [it, { it with state := .done }, it] (cuts 31)) 32 (cut 3) ⟨some 2, 0, 0, true, false⟩ = true ∧
     issues (s [it] (cuts 31)) 32 (cut 3) ⟨none, 0, 0, false, false⟩ = true ∧
     issues (issuingAt ⟨none, 0, 0, false, false⟩ [it] (cuts 3)) 3 stays ⟨none, 0, 0, false, false⟩ = true ∧
     issues { s [it] (cuts 3) with marks := jobState.marks } 3 stays ⟨some 0, 0, 3, false, false⟩ = true ∧
     { it with entry := some ⟨1, 2⟩ }.entry ≠ none ∧ { it with entry := some ⟨1, 2⟩ }.pointAfter 1 1 = 3 ∧
     { it with entry := some ⟨1, 2⟩ }.segmentAfter 1 1 = 2) := by
  decide +kernel

theorem test_hypotheses_CutCompletionAdvancesCursor_refused :
    (let s : State := { issuingAt ⟨some 0, 0, 3, false, false⟩ [closedItem] [] with marks := jobState.marks }
     isReady s = true ∧ s.cycleSafe = true ∧ s.windowSpan = some ⟨0, 1⟩ ∧ jobState.correct ⟨1500, 5000⟩ = none ∧
     clipToBed (searchSquare s.marks.searchSize 0 (nominalBed s.nest.params 0 0 .left)) ≠ none ∧
     endsIn .moveCompletion s .measuring = true ∧
     (after .moveCompletion (suspending s)).map (·.cycle.reasons.request) = some true ∧
     (let t := withRows 0 s
      isReady t = true ∧ t.cycleSafe = true ∧ t.windowSpan = none ∧ endsIn .moveCompletion t .cutting = true ∧
      (after .moveCompletion t).map (·.motion.queue) = some [])) := by
  decide +kernel

/-- What the take of an entry behind a completed TRAVEL raises. -/
def takeRaises (e : Entry) (s : State) : Option (FaultKind × FaultDetail) :=
  (after .moveCompletion (moving [.travel .cycle ⟨7, 8⟩, e] s)).bind fun t =>
    t.cycle.fault.map fun r => (r.kind, r.detail)

theorem test_hypotheses_LinesStopAndFault_takes :
    isReady (moving [.travel .cycle ⟨7, 8⟩, .home] homed) = true ∧
    (moving [.travel .cycle ⟨7, 8⟩, .home] homed).cycleSafe = true ∧
    takeRaises .home (lineOn 1 homed) = some (.guard, .guard .home) ∧
    takeRaises (.travel .cycle ⟨165000, 260000⟩) homed = none ∧
    takeRaises (.travel .cycle ⟨165001, 260000⟩) homed = some (.motionLimit, .limit .travel ⟨165001, 260000⟩ false) ∧
    takeRaises (.travel .mark ⟨0, 0⟩) State.reset = some (.motionLimit, .limit .travel ⟨0, 0⟩ true) ∧
    takeRaises (.cut .kiss ⟨0, -1⟩ none) homed = some (.motionLimit, .limit .cut ⟨0, -1⟩ false) ∧
    takeRaises (.cut .thru ⟨0, 0⟩ none) homed = none ∧
    (after .moveCompletion (moving [.travel .cycle ⟨7, 8⟩, .cut .thru ⟨0, 0⟩ none] homed)).map
      (fun t => (t.bed.toolKiss, t.bed.toolThru)) = some (none, some homed.motion.params.thruPressure) ∧
    takeRaises (.search ⟨0, 0, 165000, 260000⟩) homed = none ∧
    takeRaises (.search ⟨-1, 0, 165001, 260000⟩) homed = some (.motionLimit, .limit .search ⟨-1, 0⟩ false) ∧
    takeRaises (.search ⟨0, 0, 165001, 260000⟩) homed = some (.motionLimit, .limit .search ⟨165001, 260000⟩ false) ∧
    takeRaises (.search ⟨0, 0, 5, 5⟩) State.reset = some (.motionLimit, .limit .search ⟨0, 0⟩ true) ∧
    takeRaises (.feed 300) (lineOn 3 homed) = some (.mediaEnd, .mediaEnd false 300 0) := by
  decide +kernel

/-! ### Invariants -/

/-- A state in CUTTING with a tool lowered that meets every invariant's hypotheses, a completion waiting. -/
def cuttingNow : State :=
  let s := moving [.cut .kiss ⟨2000, 10000⟩ (some ⟨0, 0, 0⟩)] homed
  { s with
    pending := [.moveCompletion]
    cycle := { s.cycle with state := .cutting, runActive := true }
    motion := { s.motion with kiss := .lowered }
    bed := { s.bed with toolKiss := some 120 } }

/-- The hypotheses of CapacitiesKept, CycleBindingsKept, MotionSafetyKept and ParametersAndBandsKept. -/
theorem test_hypotheses_InvariantsKept :
    cuttingNow.withinCapacity = true ∧ cuttingNow.quietLink = true ∧ cuttingNow.cycleSafe = true ∧
    cuttingNow.toolsSafe = true ∧ cuttingNow.driveSafe = true ∧ cuttingNow.headSafe = true ∧
    cuttingNow.movesHomed = true ∧ cuttingNow.paramsSafe = true ∧ cuttingNow.marks.bandsSafe = true ∧
    Contour.wf cuttingNow.store.contour = true ∧
    (after .moveCompletion { cuttingNow with pending := [] }).isSome = true := by
  decide +kernel

theorem test_hypotheses_BlocksKept :
    Contour.wf cuttingNow.store.contour = true ∧ cuttingNow.store.blocksSafe ∧ cuttingNow.store.emptySlotsBare := by
  refine ⟨by decide +kernel, ?_, ?_⟩
  · have h : cuttingNow.store.allBlocks = List.range 512 := by decide +kernel
    unfold PanelStore.blocksSafe
    rw [h]
    exact List.Perm.refl _
  · unfold PanelStore.emptySlotsBare
    decide +kernel

end Sys2Proof.Tests
end

/-! The panel store after a hardware reset (R19), and ABANDON_OUTLINE (R17). -/

namespace Sys2Proof.Machine

/-! ### A hardware reset -/

/-- With no fault latched, a fault raised is a fault entry (R144, R145). -/
theorem raiseFault_unlatched {s : State} (h : s.cycle.fault = none) (k : FaultKind) (d : FaultDetail)
    (e : Option Entry) : s.raiseFault k d e = s.faultEntry k d e := by
  unfold State.raiseFault
  rw [h]

/-- A fault entry leaves the motion queue empty (R130). -/
@[simp] theorem queue_faultEntry (s : State) (k : FaultKind) (d : FaultDetail) (e : Option Entry) :
    (s.faultEntry k d e).motion.queue = [] := by
  rw [motion_faultEntry]
  rfl

/-- A hardware reset is the starting values, and behind them the ESTOP fault entry when that wire is at 1: no fault
is latched right after a reset (R131, R146). -/
theorem hardwareReset_eq (cause : ResetCause) (wires : Byte) (s : State) : s.hardwareReset cause wires =
    if (s.keptThroughReset (State.afterReset cause wires)).estopOn then
      (s.keptThroughReset (State.afterReset cause wires)).faultEntry .estop .none none
    else s.keptThroughReset (State.afterReset cause wires) := by
  exact ite_congr rfl (fun _ => raiseFault_unlatched rfl ..) fun _ => rfl

/-- A hardware reset, with or without the ESTOP fault, leaves the panel store at its starting values but for the vertex
places (R19). -/
theorem store_hardwareReset (cause : ResetCause) (wires : Byte) (s : State) :
    (s.hardwareReset cause wires).store = { PanelStore.reset with contour := s.store.contour } := by
  rw [hardwareReset_eq]
  split
  case isTrue => exact store_faultEntry ..
  case isFalse => rfl

/-- A hardware reset, with or without the ESTOP fault, leaves the motion queue empty (R117, R130). -/
theorem queue_hardwareReset (cause : ResetCause) (wires : Byte) (s : State) :
    (s.hardwareReset cause wires).motion.queue = [] := by
  rw [hardwareReset_eq]
  split
  case isTrue => exact queue_faultEntry ..
  case isFalse => rfl

/-- HARDWARE_RESET is the reset, then the notices it formed: the motion unit finds nothing to take. -/
theorem exec_hardwareReset (cause : ResetCause) (wires : Byte) (s : State) :
    exec (.hardwareReset cause wires) s = .next (s.hardwareReset cause wires).flush := by
  show Host.Outcome.next (s.hardwareReset cause wires).close = _
  rw [close_emptied (queue_hardwareReset cause wires s)]

/-- Settles O3: the flush and the ESTOP fault entry, where there is one, leave the store that the reset wrote. -/
theorem hardwareResetPanelStore : Obligations.HardwareResetPanelStore := by
  intro s cause wires
  have store : (s.hardwareReset cause wires).flush.store = { PanelStore.reset with contour := s.store.contour } :=
    (State.store_flush _).trans (store_hardwareReset cause wires s)
  refine ⟨_, exec_hardwareReset cause wires s, fun i => ?_, ?_, ?_, ?_⟩
  · show (State.store _).panels.get i = Panel.emptyRecord
    rw [store]
    exact Table.get_fill 96 Panel.emptyRecord i
  · rw [store, PanelStore.reset, Config.blocks]
  · rw [store, PanelStore.reset]
  · rw [store]

/-! ### ABANDON_OUTLINE -/

/-- With no outline open ABANDON_OUTLINE changes nothing (R17). -/
theorem actAbandonOutline_notOpen {s : State} (h : s.store.loader = none) :
    actAbandonOutline s = s.answer .noChange := by
  unfold actAbandonOutline
  rw [h]

/-- With an outline open ABANDON_OUTLINE abandons it and reports the blocks returned and the blocks now free (R17). -/
theorem actAbandonOutline_open {s : State} {o : OpenOutline} (h : s.store.loader = some o) :
    actAbandonOutline s = (s.withStore (s.store.abandon o)).doneWith
      (be16 (s.panel o.slot).chain.length ++ be16 (s.store.abandon o).free.length) := by
  unfold actAbandonOutline
  rw [h]
  rfl

/-- The free blocks after an outline is abandoned: those that were free and those of its chain (R2, R8). -/
theorem length_free_abandon (st : PanelStore) (o : OpenOutline) :
    (st.abandon o).free.length = st.free.length + (st.panels.get o.slot).chain.length :=
  List.length_append

/-- Settles O22: between commands the request is its action and its reply, and the action touches the panel store
alone. -/
theorem abandonOutlineEmpties : Obligations.AbandonOutlineEmpties := by
  intro s tag ready
  have ⟨⟨settled, quiet⟩, _⟩ := ready
  refine ⟨fun o isOpen => ?_, fun notOpen => ?_⟩
  · have act := actAbandonOutline_open isOpen
    rw [length_free_abandon] at act
    exact request_answered ready rfl act settled quiet
  · exact request_answered ready rfl (actAbandonOutline_notOpen notOpen) settled quiet

end Sys2Proof.Machine

/-! UNCOMMIT (R46) and NEST_ABORT (R37). -/

namespace Sys2Proof.Machine

/-! ### The common checks of the nest unit's requests -/

/-- A run is in flight exactly when the nest unit holds one (R28). -/
theorem nestRunning_iff {s : State} : s.nestRunning = true ↔ s.nest.run ≠ none := Option.isSome_iff_ne_none

theorem not_nestRunning {s : State} (idle : s.nest.run = none) : ¬ s.nestRunning = true :=
  nestRunning_iff.not_left.mpr idle

/-- An outline is open exactly when the loader holds one (R10). -/
theorem outlineOpen_iff {s : State} : s.outlineOpen = true ↔ s.store.loader ≠ none := Option.isSome_iff_ne_none

theorem not_outlineOpen {s : State} (closed : s.store.loader = none) : ¬ s.outlineOpen = true :=
  outlineOpen_iff.not_left.mpr closed

/-- A byte above 95 names no slot (R1). -/
theorem slotOf_above {b : Byte} (h : 95 < b.toNat) : slotOf b = none := dif_neg (by omega)

/-- A byte that holds a slot's number names that slot (R1). -/
theorem slotOf_eq_some {b : Byte} {i : Slot} (h : b.toNat = i.val) : slotOf b = some i := by
  have below : b.toNat < 96 := h ▸ i.isLt
  rw [slotOf, dif_pos below, Option.some_inj]
  exact Fin.ext h

/-! ### How a request taken between commands ends -/

/-- An answer that leaves the state as it is: the request is its reply alone. -/
theorem request_unchanged {i : Instr} {k t : Byte} {act : State → Acted} {s : State} {status : Status} (h : s.ready)
    (wf : i.wellFormed = true) (ha : act s = s.answer status) :
    request i (serve k t act) s = .next (s.queueReply k t status [] none) := by
  have ⟨⟨settled, quiet⟩, _⟩ := h
  exact request_answered h wf ha settled quiet

/-- The flush of one notice, formed where none stood, queues it. -/
theorem flush_emit {s : State} (quiet : s.link.formed = []) (n : OutRecord) : (s.emit n).flush = s.queueNotice n := by
  have rest : (s.emit n).flush = s.flush.queueNotice n := by
    simp [State.flush, State.emit, State.queueNotice, State.withLink, quiet]
  rw [rest, flush_quiet quiet]

/-- An action that forms one notice: the notice is queued behind the reply (R157 step 5). -/
theorem request_notifies {i : Instr} {k tag : Byte} {act : State → Acted} {s t : State} {n : OutRecord} (h : s.ready)
    (wf : i.wellFormed = true) (ha : act s = (t.emit n).done) (settled : t.motionSettled = true)
    (quiet : t.link.formed = []) :
    request i (serve k tag act) s = .next ((t.queueReply k tag .ok [] none).queueNotice n) := by
  obtain ⟨⟨_, begun⟩, room⟩ := h
  have served : serve k tag act s = (t.queueReply k tag .ok [] none).emit n := by
    unfold serve
    rw [ha]
    rfl
  have still : ((t.queueReply k tag .ok [] none).emit n).motionSettled = true := settled
  rw [request_delivers room wf, begin_quiet begun, served, close_settled still,
    flush_emit ((formed_queueReply ..).trans quiet)]

/-! ### UNCOMMIT -/

/-- Check 1 of R46. -/
theorem actUncommit_running {s : State} (slot : Byte) (running : s.nest.run ≠ none) :
    actUncommit slot s = s.answer .nestBusy := by
  rw [actUncommit, if_pos (nestRunning_iff.mpr running)]

/-- Behind check 1 of R46. -/
theorem actUncommit_outlineOpen {s : State} (slot : Byte) (idle : s.nest.run = none) (isOpen : s.store.loader ≠ none) :
    actUncommit slot s = s.answer .outlineOpen := by
  rw [actUncommit, if_neg (not_nestRunning idle), if_pos (outlineOpen_iff.mpr isOpen)]

/-- Behind checks 1 and 2 of R46. -/
theorem actUncommit_noSlot {s : State} {slot : Byte} (idle : s.nest.run = none) (closed : s.store.loader = none)
    (above : 95 < slot.toNat) : actUncommit slot s = s.answer .badArg := by
  rw [actUncommit, if_neg (not_nestRunning idle), if_neg (not_outlineOpen closed),
    slotOf_above above]

/-- Checks 4 to 8 of R46 and the effect, on the panel that the request names. -/
theorem actUncommit_slot {s : State} {slot : Byte} {i : Slot} (idle : s.nest.run = none)
    (closed : s.store.loader = none) (named : slot.toNat = i.val) : actUncommit slot s =
      if (s.panel i).state = .empty ∨ (s.panel i).state = .loading then s.answer .refusedState
      else if (s.panel i).lock ≠ .committed then s.answer .noChange
      else if !s.keyOn then s.answer .locked
      else if (s.panel i).state ≠ .placed then s.answer .refusedState
      else if s.reachesBuilt (s.panel i) then s.answer .windowPassed
      else (s.setPanel i { s.panel i with lock := .pinned }).done := by
  rw [actUncommit, if_neg (not_nestRunning idle), if_neg (not_outlineOpen closed),
    slotOf_eq_some named]

/-- Settles O34: each clause is one check of R46 with those before it passed, in their order. -/
theorem uncommitNeedsKey : Obligations.UncommitNeedsKey := by
  intro s tag slot ready answer
  have refused {status : Status} (act : actUncommit slot s = s.answer status) : answer status :=
    request_unchanged ready rfl act
  refine ⟨fun running => refused (actUncommit_running slot running),
    fun idle isOpen => refused (actUncommit_outlineOpen slot idle isOpen),
    fun idle closed above => refused (actUncommit_noSlot idle closed above),
    fun i idle closed named => ?_⟩
  have act := actUncommit_slot idle closed named
  refine ⟨fun unloaded => refused (by rw [act, if_pos unloaded]), fun notEmpty notLoading => ?_⟩
  rw [if_neg (not_or.mpr ⟨notEmpty, notLoading⟩)] at act
  refine ⟨fun free => refused (by rw [act, if_pos free]), fun committed off => ?_, fun committed on => ?_⟩
  all_goals rw [if_neg (not_not.mpr committed)] at act
  · have keyOff : s.keyOn = false := off
    exact refused (by rw [act, keyOff]; rfl)
  · have keyOn : s.keyOn = true := on
    rw [keyOn, if_neg (by decide)] at act
    refine ⟨fun notPlaced => refused (by rw [act, if_pos notPlaced]), fun placed passed => ?_, fun placed ahead => ?_⟩
    all_goals rw [if_neg (not_not.mpr placed)] at act
    · exact refused (by rw [act, if_pos passed])
    · rw [if_neg (Bool.eq_false_iff.mp ahead)] at act
      have ⟨⟨settled, quiet⟩, _⟩ := ready
      exact request_answered ready rfl act settled quiet

/-! ### NEST_ABORT -/

/-- In RUNNING NEST_ABORT drops the run and forms NEST_DONE (R37). -/
theorem actNestAbort_running {s : State} (running : s.nest.run ≠ none) :
    actNestAbort s = (s.dropNest.emit (nestDoneNotice true 0 0 0 0)).done := by
  rw [actNestAbort, if_pos (nestRunning_iff.mpr running)]

/-- In IDLE NEST_ABORT changes nothing (R37). -/
theorem actNestAbort_idle {s : State} (idle : s.nest.run = none) : actNestAbort s = s.answer .noChange := by
  rw [actNestAbort, if_neg (not_nestRunning idle)]

/-- The NEST_DONE of an aborted run: aborted = yes and every count 0 (R37, R164). -/
theorem nestDoneNotice_aborted : nestDoneNotice true 0 0 0 0 = ⟨0x63, 0, [1, 0, 0, 0, 0, 0, 0, 0], none⟩ := by decide

/-- Settles O29: dropping the run touches the nest unit alone, so NEST_DONE is the one notice behind the reply. -/
theorem nestAbortGivesUp : Obligations.NestAbortGivesUp := by
  intro s tag ready
  have ⟨⟨settled, quiet⟩, _⟩ := ready
  refine ⟨fun running => ?_, fun idle => request_unchanged ready rfl (actNestAbort_idle idle)⟩
  rw [← nestDoneNotice_aborted]
  exact request_notifies ready rfl (actNestAbort_running running) settled quiet

end Sys2Proof.Machine

/-! JOB_CLEAR (R21, R116) and SUSPEND (R101). -/

namespace Sys2Proof.Machine

/-! ### JOB_CLEAR -/

/-- Some cell of a table passes a test exactly when the cell of some number does. -/
theorem Table.any_cells_iff {α : Type} {n : Nat} (t : Table α n) (test : α → Bool) :
    t.cells.any test = true ↔ ∃ i, test (t.get i) = true := by
  rw [List.any_eq_true]
  constructor
  · rintro ⟨a, inCells, passes⟩
    obtain ⟨k, below, rfl⟩ := List.mem_iff_getElem.mp inCells
    exact ⟨⟨k, t.size ▸ below⟩, passes⟩
  · rintro ⟨i, passes⟩
    exact ⟨t.get i, List.getElem_mem _, passes⟩

/-- Some slot is COMMITTED and KEY is off: the lock on the job (R116 check 4). -/
theorem jobLocked_iff {s : State} :
    ((s.store.panels.cells.any fun p => p.lock = .committed) && !s.keyOn) = true ↔
      (∃ i, (s.panel i).lock = .committed) ∧ (s.bed.lines.get 4).taken = false := by
  rw [Bool.and_eq_true, Table.any_cells_iff, Bool.not_eq_true']
  exact and_congr (exists_congr fun _ => decide_eq_true_iff) Iff.rfl

/-- Check 1 of R116. -/
theorem actJobClear_notIdle {s : State} (active : s.cycle.state ≠ .idle) :
    actJobClear s = s.answer .refusedState := by
  rw [actJobClear, if_pos active]

/-- Behind check 1 of R116. -/
theorem actJobClear_outlineOpen {s : State} (idle : s.cycle.state = .idle) (isOpen : s.store.loader ≠ none) :
    actJobClear s = s.answer .refusedState := by
  rw [actJobClear, if_neg (not_not.mpr idle), if_pos (outlineOpen_iff.mpr isOpen)]

/-- Behind checks 1 and 2 of R116. -/
theorem actJobClear_running {s : State} (idle : s.cycle.state = .idle) (closed : s.store.loader = none)
    (running : s.nest.run ≠ none) : actJobClear s = s.answer .nestBusy := by
  rw [actJobClear, if_neg (not_not.mpr idle), if_neg (not_outlineOpen closed), if_pos (nestRunning_iff.mpr running)]

/-- Check 4 of R116 and the effect, behind the checks before it. -/
theorem actJobClear_atRest {s : State} (idle : s.cycle.state = .idle) (closed : s.store.loader = none)
    (noRun : s.nest.run = none) : actJobClear s =
      if (s.store.panels.cells.any fun p => p.lock = .committed) && !s.keyOn then s.answer .locked
      else s.clearJob.done := by
  rw [actJobClear, if_neg (not_not.mpr idle), if_neg (not_outlineOpen closed), if_neg (not_nestRunning noRun)]

/-- Settles O45: each refusal is one check of R116 with those before it passed; the clearing leaves the motion unit and
the link port as they are, so behind it stands its reply alone. -/
theorem jobClearClears : Obligations.JobClearClears := by
  intro s tag ready answer locked
  have refused {status : Status} (act : actJobClear s = s.answer status) : answer status :=
    request_unchanged ready rfl act
  refine ⟨fun active => refused (actJobClear_notIdle active),
    fun idle isOpen => refused (actJobClear_outlineOpen idle isOpen),
    fun idle closed running => refused (actJobClear_running idle closed running),
    fun idle closed noRun isLocked => ?_, fun idle closed noRun unlocked => ?_⟩
  all_goals have act := actJobClear_atRest idle closed noRun
  · exact refused (by rw [act, if_pos (jobLocked_iff.mpr isLocked)])
  · rw [if_neg (jobLocked_iff.not.mpr unlocked)] at act
    have ⟨⟨settled, quiet⟩, _⟩ := ready
    exact request_answered ready rfl act settled quiet

/-! ### SUSPEND -/

/-- The states in which a run is under way (R101, R111). -/
theorem runUnderWay_iff {s : State} : s.runUnderWay = true ↔ s.cycle.state = .measuring ∨ s.cycle.state = .cutting ∨
    (s.cycle.state = .feeding ∧ s.cycle.runActive = true) := by
  simp only [State.runUnderWay, Bool.or_eq_true, Bool.and_eq_true, decide_eq_true_eq, or_assoc]

/-- SUSPEND while a run is under way (R101). -/
theorem actSuspend_underWay {s : State} (running : s.runUnderWay = true) : actSuspend s =
    if s.cycle.reasons.request then s.answer .noChange
    else if s.cycle.stopPending then s.answer .refusedState
    else (s.withCycle { s.cycle with reasons := { s.cycle.reasons with request := true } }).done := by
  rw [actSuspend, if_pos running]

/-- SUSPEND with no run under way changes nothing in SUSPENDED and is refused elsewhere (R101). -/
theorem actSuspend_notUnderWay {s : State} (still : ¬ s.runUnderWay = true) : actSuspend s =
    if s.cycle.state = .suspended then s.answer .noChange else s.answer .refusedState := by
  rw [actSuspend, if_neg still]

/-- In SUSPENDED no run is under way. -/
theorem not_runUnderWay_of_suspended {s : State} (suspended : s.cycle.state = .suspended) :
    ¬ s.runUnderWay = true := by
  simp [State.runUnderWay, suspended]

/-- With REQUEST among the pending reasons a suspension is pending (R92). -/
theorem suspendPending_of_request {s : State} (request : s.cycle.reasons.request = true) :
    s.suspendPending = true := by
  simp [State.suspendPending, Reasons.any, request]

/-- Settles O41: the action splits on the run under way, then on the pending reasons or on SUSPENDED; adding REQUEST
touches the cycle controller alone. -/
theorem suspendAddsRequest : Obligations.SuspendAddsRequest := by
  intro s tag ready answer underWay
  have answered {status : Status} (act : actSuspend s = s.answer status) : answer status :=
    request_unchanged ready rfl act
  refine ⟨fun running => ?_, fun suspended => ?_, fun still notSuspended => ?_⟩
  · have act := actSuspend_underWay (runUnderWay_iff.mpr running)
    refine ⟨fun requested => answered (by rw [act, if_pos requested]), fun fresh stopping => ?_, fun fresh noStop => ?_⟩
    all_goals rw [if_neg (Bool.eq_false_iff.mp fresh)] at act
    · exact answered (by rw [act, if_pos stopping])
    · rw [if_neg (Bool.eq_false_iff.mp noStop)] at act
      have ⟨⟨settled, quiet⟩, _⟩ := ready
      exact ⟨request_answered ready rfl act settled quiet, suspendPending_of_request rfl⟩
  · have act := actSuspend_notUnderWay (not_runUnderWay_of_suspended suspended)
    exact answered (by rw [act, if_pos suspended])
  · have act := actSuspend_notUnderWay (runUnderWay_iff.not.mpr still)
    exact answered (by rw [act, if_neg notSuspended])

end Sys2Proof.Machine

/-! LINK_TEST (R159). -/

namespace Sys2Proof.Machine

/-- A request taken between commands with a payload length that its kind does not allow is its BAD_LENGTH reply alone
(R157 step 4). -/
theorem request_wrongLength {i : Instr} {run : State → State} {s : State} {kind tag : Byte} {payload : List Byte}
    (h : s.ready) (wrong : i.wellFormed = false) (fields : requestFields i = some (kind, tag, payload)) :
    request i run s = .next (s.queueReply kind tag .badLength [] none) := by
  obtain ⟨⟨settled, quiet⟩, room⟩ := h
  rw [request_badLength room wrong fields, begin_quiet quiet,
    close_settled ((motionSettled_queueReply ..).trans settled), flush_quiet ((formed_queueReply ..).trans quiet)]

/-- The payload lengths of LINK_TEST (R159). -/
theorem wellFormed_linkTest_iff {tag : Byte} {payload : List Byte} :
    (Instr.linkTest tag payload).wellFormed = true ↔ 2 ≤ payload.length ∧ payload.length ≤ 239 := by
  simp only [Instr.wellFormed, Bool.and_eq_true, decide_eq_true_eq]

/-- A reply's payload is the status, the two bytes of the digest and the data (R154, R163). -/
theorem length_replyRecord_payload (kind tag : Byte) (status : Status) (data : List Byte) (rate : Option (Fin 4))
    (s : State) : (replyRecord kind tag status data rate s).payload.length = 3 + data.length := by
  simp only [replyRecord, State.digest, List.length_append, List.length_cons, List.length_nil]

/-- Settles O13: the length decides between the BAD_LENGTH reply and the action, which hands the payload back as the
reply's data; with KIND, TAG, status and digest a body holds five bytes beside it, so 239 fill the 244. -/
theorem linkTestEchoes : Obligations.LinkTestEchoes := by
  intro s tag payload ready
  refine ⟨fun outside => ?_, fun least most => ⟨?_, rfl, ?_⟩⟩
  · have wrong : (Instr.linkTest tag payload).wellFormed = false := by
      rw [← Bool.not_eq_true, wellFormed_linkTest_iff]
      omega
    exact request_wrongLength ready wrong rfl
  · have ⟨⟨settled, quiet⟩, _⟩ := ready
    have echo : actLinkTest payload s = s.doneWith payload := rfl
    exact request_answered ready (wellFormed_linkTest_iff.mpr ⟨least, most⟩) echo settled quiet
  · rw [length_replyRecord_payload]
    omega

end Sys2Proof.Machine

/-! What can happen inside a command, said once: every command runs through effects of a few kinds, each on one unit or
with a guard on the cycle state. An invariant of the step is then shown effect by effect. -/

namespace Sys2Proof.Machine

/-! ### The effects -/

/-- The contour store canonical, every block in one place, EMPTY slots bare (R1, R8). -/
def PanelStore.sound (st : PanelStore) : Prop :=
  Contour.wf st.contour = true ∧ st.blocksSafe ∧ st.emptySlotsBare

/-- The mark unit's parameters in their ranges and one band fewer than rows (R51, R54). -/
def MarkUnit.sound (mu : MarkUnit) : Prop :=
  inRange 500 4000 mu.searchSize = true ∧ inRange 10 500 mu.geomTol = true ∧ inRange 5 500 mu.seamTol = true ∧
    mu.bandsSafe = true

/-- The planner's parameters in their ranges (R73). -/
def Planner.sound (pl : Planner) : Prop :=
  inRange 200 3000 pl.weedDistance = true ∧ inRange 1 4 pl.kissPasses = true ∧ inRange 1 4 pl.thruPasses = true

/-- The cycle controller with its state, its records and its fault record as they were, VAC_SETTLE in its range, and a
settle timer that runs anew in MEASURING alone. -/
structure CycleControl.Standing (c x : CycleControl) : Prop where
  state : x.state = c.state
  hold : x.hold = c.hold
  taken : x.taken = c.taken
  before : x.before = c.before
  fault : x.fault = c.fault
  timer : x.settleTimer = c.settleTimer ∨ x.settleTimer = none ∨ c.state = .measuring
  vacSettle : inRange 0 5000 c.vacSettle = true → inRange 0 5000 x.vacSettle = true

/-- The motion unit with its queue, its head and its tools as they were, and its parameters in their ranges. -/
structure MotionUnit.Standing (m x : MotionUnit) : Prop where
  queue : x.queue = m.queue
  executing : x.executing = m.executing
  head : x.head = m.head
  homed : x.homed = m.homed
  kiss : x.kiss = m.kiss
  thru : x.thru = m.thru
  params : m.params.inRanges = true → x.params.inRanges = true

/-- The bed I/O unit with its tool lines, its feed drive and its beacon as they were. -/
structure BedIO.Standing (b x : BedIO) : Prop where
  toolKiss : x.toolKiss = b.toolKiss
  toolThru : x.toolThru = b.toolThru
  feedDrive : x.feedDrive = b.feedDrive
  beacon : x.beacon = b.beacon

/-- No fault is latched and no test square is cut: the states that a run passes through. -/
def State.mayGo (s : State) : Prop := s.cycle.state ≠ .halted ∧ s.cycle.state ≠ .testcut

/-- The cycle states that hold no record of their own: those that a run goes to without a notice. -/
def CycleState.plain : CycleState → Bool
  | .idle | .homing | .measuring | .cutting | .feeding => true
  | .suspended | .held | .halted | .testcut => false

/-- The head entry is free to start: nothing executes, and it passes the limit check (R120). -/
def State.mayStart (s : State) (e : Entry) : Prop :=
  s.motion.executing = false ∧ s.motion.queue.head? = some e ∧ limitFailure s.motion.homed e = none

/-- One effect inside a command. -/
inductive Effect : State → State → Prop
  | emit (s : State) (n : OutRecord) : Effect s (s.emit n)
  | link (s : State) (x : LinkPort) (outbound : x.outbound = s.link.outbound) (inbound : x.inbound = s.link.inbound)
      (overrun : x.overrun = s.link.overrun) : Effect s (s.withLink x)
  | store (s : State) (x : PanelStore) (sound : s.store.sound → x.sound) : Effect s (s.withStore x)
  | nest (s : State) (x : NestUnit) (ranges : s.nest.params.inRanges = true → x.params.inRanges = true) :
      Effect s (s.withNest x)
  | marks (s : State) (x : MarkUnit) (sound : s.marks.sound → x.sound) : Effect s (s.withMarks x)
  | plan (s : State) (x : Planner) (sound : s.plan.sound → x.sound) : Effect s (s.withPlan x)
  | cycle (s : State) (x : CycleControl) (standing : s.cycle.Standing x) : Effect s (s.withCycle x)
  | bed (s : State) (x : BedIO) (standing : s.bed.Standing x) : Effect s (s.withBed x)
  | motion (s : State) (x : MotionUnit) (standing : s.motion.Standing x) : Effect s (s.withMotion x)
  /-- The run goes to a state that holds no record. -/
  | go (s : State) (c : CycleState) (free : s.mayGo) (plain : c.plain = true) : Effect s (s.setCycle c)
  | suspend (s : State) (t : Taken) (free : s.mayGo) :
      Effect s ((s.setCycle .suspended).withCycle { (s.setCycle .suspended).cycle with taken := some t })
  | hold (s : State) (r : HoldReason) (free : s.mayGo) :
      Effect s ((s.setCycle .held).withCycle { (s.setCycle .held).cycle with hold := some r })
  | testCut (s : State) (standing : s.standing = true) :
      Effect s ((s.setCycle .testcut).withCycle { (s.setCycle .testcut).cycle with
        before := some ⟨s.cycle.state, s.cycle.hold, s.cycle.taken⟩, testCuts := 0 })
  | endTestCut (s : State) (inTest : s.cycle.state = .testcut) : Effect s s.endTestCut
  | fault (s : State) (k : FaultKind) (d : FaultDetail) (e : Option Entry) (unlatched : s.cycle.fault = none) :
      Effect s (s.faultEntry k d e)
  | followOn (s : State) (k : FaultKind) (r : FaultRecord) (latched : s.cycle.fault = some r) :
      Effect s (s.followOnFault k r)
  | clearFault (s : State) (r : FaultRecord) (latched : s.cycle.fault = some r) : Effect s s.clearFault
  | place (s : State) (e : Entry) (free : s.cycle.state ≠ .halted) : Effect s (s.place e)
  | remove (s : State) (which : Entry → Bool) : Effect s (s.withMotion (s.motion.remove which))
  | raiseTools (s : State) : Effect s s.raiseTools
  | startMove (s : State) (e : Entry) (v : Option Nat) (start : s.mayStart e) (noFeed : e.kind ≠ .feed) :
      Effect s (s.startExecuting v).raiseTools
  | startCut (s : State) (tool : Tool) (p : BedPos) (r : Option CutRef) (v : Option Nat)
      (start : s.mayStart (.cut tool p r)) : Effect s ((s.startExecuting v).lowerTool tool)
  | startFeed (s : State) (d : Nat) (start : s.mayStart (.feed d)) : Effect s (s.startFeed d)
  /-- An entry other than a TRAVEL or a CUT ends where the head stands. -/
  | endEntry (s : State) (noFeed : s.feedExecuting = false) : Effect s s.endEntry
  /-- A TRAVEL or a CUT ends at its target (R123). -/
  | reach (s : State) (e : Entry) (t : BedPos) (executing : s.motion.executingEntry = some e)
      (target : (∃ p, e = .travel p t) ∨ ∃ tool r, e = .cut tool t r) :
      Effect s (s.endEntry.withMotion { s.endEntry.motion with head := some t })
  /-- A HOME ends at (0, 0) with the homed flag set (R125). -/
  | home (s : State) (executing : s.homeExecuting = true) :
      Effect s (s.endEntry.withMotion { s.endEntry.motion with head := some ⟨0, 0⟩, homed := true })
  /-- A FEED ends with its drive stopped (R129). -/
  | endFeed (s : State) : Effect s s.stopDrive.endEntry
  /-- A FEED that has slipped ends in a fault, its drive stopped (R129). -/
  | slip (s : State) (d : FaultDetail) (unlatched : s.cycle.fault = none) :
      Effect s (s.stopDrive.faultEntry .mediaSlip d none)
  | stopDrive (s : State) (r : FaultRecord) (latched : s.cycle.fault = some r) : Effect s s.stopDrive
  /-- The head follows the axes while it is homed (R123). -/
  | follow (s : State) (p : BedPos) (homed : s.motion.homed = true) :
      Effect s (s.withMotion { s.motion with head := some p })

/-- The course of effects inside a command. -/
abbrev Flow : State → State → Prop := Relation.ReflTransGen Effect

theorem Effect.flow {s t : State} (h : Effect s t) : Flow s t := .single h

end Sys2Proof.Machine

namespace Sys2Proof.Machine

/-! ### The mark unit's operations keep its parameters, its rows and its bands in number -/

/-- Two mark units with the same parameters and as many rows and bands. -/
structure MarkUnit.Alike (mu x : MarkUnit) : Prop where
  searchSize : x.searchSize = mu.searchSize
  geomTol : x.geomTol = mu.geomTol
  seamTol : x.seamTol = mu.seamTol
  rows : x.rows.length = mu.rows.length
  bands : x.bands.length = mu.bands.length

theorem MarkUnit.Alike.trans {a b c : MarkUnit} (h : a.Alike b) (k : b.Alike c) : a.Alike c :=
  ⟨k.searchSize.trans h.searchSize, k.geomTol.trans h.geomTol, k.seamTol.trans h.seamTol, k.rows.trans h.rows,
    k.bands.trans h.bands⟩

theorem MarkUnit.Alike.refl (mu : MarkUnit) : mu.Alike mu := ⟨rfl, rfl, rfl, rfl, rfl⟩

theorem MarkUnit.Alike.sound {mu x : MarkUnit} (h : mu.Alike x) (hm : mu.sound) : x.sound := by
  obtain ⟨size, geom, seam, bands⟩ := hm
  unfold MarkUnit.sound MarkUnit.bandsSafe at *
  rw [h.searchSize, h.geomTol, h.seamTol, h.rows, h.bands]
  exact ⟨size, geom, seam, bands⟩

theorem alike_withRows (mu : MarkUnit) {rows : List MarkRow} (h : rows.length = mu.rows.length) :
    mu.Alike (mu.withRows rows) := ⟨rfl, rfl, rfl, h, List.length_mapIdx⟩

theorem alike_uncheckSpan (mu : MarkUnit) (sp : Span) : mu.Alike (mu.uncheckSpan sp) :=
  ⟨rfl, rfl, rfl, rfl, List.length_mapIdx⟩

theorem alike_uncheckRow (mu : MarkUnit) (row : Nat) : mu.Alike (mu.uncheckRow row) :=
  ⟨rfl, rfl, rfl, rfl, List.length_mapIdx⟩

theorem alike_setMark (mu : MarkUnit) (row : Nat) (side : Side) (m : Mark) : mu.Alike (mu.setMark row side m) := by
  unfold MarkUnit.setMark
  split
  · exact alike_withRows mu List.length_set
  · exact .refl mu

theorem alike_flight (mu : MarkUnit) (f : Option SearchInFlight) : mu.Alike { mu with flight := f } :=
  ⟨rfl, rfl, rfl, rfl, rfl⟩

theorem alike_openWindow (mu : MarkUnit) (k : Nat) (sp : Option Span) (a : Option Int) :
    mu.Alike (mu.openWindow k sp a) := by
  have opened : ∀ o : MarkUnit, mu.Alike o → ∀ sp f m, mu.Alike { o with span := sp, flight := f, seam := m } :=
    fun _ h _ _ _ => ⟨h.searchSize, h.geomTol, h.seamTol, h.rows, h.bands⟩
  unfold MarkUnit.openWindow
  refine opened _ ?_ _ _ _
  cases sp with
  | none => exact .refl mu
  | some sp => exact (alike_withRows mu List.length_mapIdx).trans (alike_uncheckSpan _ sp)

theorem alike_unreadSpan (mu : MarkUnit) (sp : Option Span) : mu.Alike (mu.unreadSpan sp) := by
  cases sp with
  | none => exact .refl mu
  | some sp => exact (alike_withRows mu List.length_mapIdx).trans (alike_uncheckSpan _ sp)

theorem alike_invalidate (mu : MarkUnit) (sp : Option Span) : mu.Alike (mu.invalidate sp) :=
  (alike_unreadSpan mu sp).trans ⟨rfl, rfl, rfl, rfl, rfl⟩

theorem alike_continued (mu : MarkUnit) : mu.Alike mu.continued := by
  unfold MarkUnit.continued
  split
  · exact alike_withRows mu List.length_mapIdx
  · exact .refl mu

theorem alike_checkSpan (mu : MarkUnit) (p : LayoutParams) : mu.Alike (mu.checkSpan p) := by
  unfold MarkUnit.checkSpan
  split
  · exact ⟨rfl, rfl, rfl, rfl, List.length_mapIdx⟩
  · exact .refl mu

/-- Whatever the row count, the bands follow it (R48, R51). -/
theorem sound_applyRowCount (mu : MarkUnit) (n : Nat) (h : mu.sound) : (mu.applyRowCount n).sound := by
  obtain ⟨size, geom, seam, bands⟩ := h
  refine ⟨size, geom, seam, ?_⟩
  simp only [MarkUnit.bandsSafe, beq_iff_eq] at bands ⊢
  simp only [MarkUnit.applyRowCount, List.length_append, List.length_take, List.length_replicate]
  omega

/-! ### The panel table as a run changes it -/

theorem Table.cells_map_eq {α β : Type} {n : Nat} {t u : Table α n} {f : α → β}
    (h : ∀ i, f (t.get i) = f (u.get i)) : t.cells.map f = u.cells.map f := by
  refine List.ext_getElem (by simp [t.size, u.size]) fun k hk _ => ?_
  have below : k < n := by simpa [t.size] using hk
  simpa [Table.get] using h ⟨k, below⟩

/-- A panel table whose slots keep their chains, none of them newly EMPTY, is as sound as before. -/
theorem sound_withPanels {st : PanelStore} {t : Table Panel 96}
    (chain : ∀ i, (t.get i).chain = (st.panels.get i).chain)
    (empty : ∀ i, (t.get i).state = .empty → (st.panels.get i).state = .empty) (h : st.sound) :
    ({ st with panels := t } : PanelStore).sound := by
  obtain ⟨wf, blocks, bare⟩ := h
  refine ⟨wf, ?_, fun i hi => (chain i).trans (bare i (empty i hi))⟩
  unfold PanelStore.blocksSafe PanelStore.allBlocks at *
  rw [List.flatMap_def] at *
  rw [Table.cells_map_eq (f := Panel.chain) chain]
  exact blocks

theorem sound_setPanel {st : PanelStore} {i : Slot} {p : Panel} (chain : p.chain = (st.panels.get i).chain)
    (empty : p.state = .empty → (st.panels.get i).state = .empty) (h : st.sound) : (st.setPanel i p).sound := by
  refine sound_withPanels (fun j => ?_) (fun j => ?_) h
  all_goals
    by_cases e : i = j
    · subst e
      rw [Table.get_set_self]
      assumption
    · rw [Table.get_set_ne _ _ e]
      try exact id

theorem Panel.atWindowDone_empty {lp : LayoutParams} {k : Nat} {p : Panel} (h : (p.atWindowDone lp k).state = .empty) :
    p.state = .empty := by
  unfold Panel.atWindowDone at h
  split at h
  · split at h
    · split at h
      · cases h
      · exact h
    · exact h
  · exact h

/-! ### Flows that stay in their cycle state -/

/-- A flow that ends in the cycle state it began in. -/
structure Stay (s t : State) : Prop where
  flow : Flow s t
  state : t.cycle.state = s.cycle.state

theorem Stay.refl (s : State) : Stay s s := ⟨.refl, rfl⟩
theorem Stay.trans {a b c : State} (h : Stay a b) (k : Stay b c) : Stay a c :=
  ⟨h.flow.trans k.flow, k.state.trans h.state⟩
theorem Stay.mayGo {s t : State} (h : Stay s t) (free : s.mayGo) : t.mayGo := by
  unfold State.mayGo
  rw [h.state]
  exact free

theorem Stay.emit {s t : State} {n : OutRecord} (h : Stay s t) : Stay s (t.emit n) :=
  h.trans ⟨(Effect.emit t n).flow, rfl⟩
theorem Stay.marks {s t : State} {x : MarkUnit} (h : Stay s t) (alike : t.marks.Alike x) : Stay s (t.withMarks x) :=
  h.trans ⟨(Effect.marks t x alike.sound).flow, rfl⟩
theorem Stay.plan {s t : State} {x : Planner} (h : Stay s t) (sound : t.plan.sound → x.sound) :
    Stay s (t.withPlan x) := h.trans ⟨(Effect.plan t x sound).flow, rfl⟩
theorem Stay.cycle {s t : State} {x : CycleControl} (h : Stay s t) (standing : t.cycle.Standing x) :
    Stay s (t.withCycle x) := h.trans ⟨(Effect.cycle t x standing).flow, standing.state⟩
theorem Stay.bed {s t : State} {x : BedIO} (h : Stay s t) (standing : t.bed.Standing x) : Stay s (t.withBed x) :=
  h.trans ⟨(Effect.bed t x standing).flow, rfl⟩
theorem Stay.motion {s t : State} {x : MotionUnit} (h : Stay s t) (standing : t.motion.Standing x) :
    Stay s (t.withMotion x) := h.trans ⟨(Effect.motion t x standing).flow, rfl⟩
theorem Stay.nest {s t : State} {x : NestUnit} (h : Stay s t)
    (ranges : t.nest.params.inRanges = true → x.params.inRanges = true) : Stay s (t.withNest x) :=
  h.trans ⟨(Effect.nest t x ranges).flow, rfl⟩
theorem Stay.store {s t : State} {x : PanelStore} (h : Stay s t) (sound : t.store.sound → x.sound) :
    Stay s (t.withStore x) := h.trans ⟨(Effect.store t x sound).flow, rfl⟩
theorem Stay.setPanel {s t : State} {i : Slot} {p : Panel} (h : Stay s t) (chain : p.chain = (t.panel i).chain)
    (empty : p.state = .empty → (t.panel i).state = .empty) : Stay s (t.setPanel i p) :=
  .store h (sound_setPanel chain empty)
theorem Stay.raiseTools {s t : State} (h : Stay s t) : Stay s t.raiseTools :=
  h.trans ⟨(Effect.raiseTools t).flow, rfl⟩
theorem Stay.remove {s t : State} {which : Entry → Bool} (h : Stay s t) :
    Stay s (t.withMotion (t.motion.remove which)) := h.trans ⟨(Effect.remove t which).flow, rfl⟩
theorem Stay.place {s t : State} {e : Entry} (h : Stay s t) (free : s.cycle.state ≠ .halted) : Stay s (t.place e) :=
  h.trans ⟨(Effect.place t e (h.state ▸ free)).flow, by rw [State.cycle_place]⟩

theorem CycleControl.Standing.same (c : CycleControl) : c.Standing c := ⟨rfl, rfl, rfl, rfl, rfl, .inl rfl, id⟩

theorem Stay.clearReasons {s t : State} (h : Stay s t) : Stay s t.clearReasons :=
  .cycle h ⟨rfl, rfl, rfl, rfl, rfl, .inl rfl, id⟩
theorem Stay.clearOwed {s t : State} (h : Stay s t) : Stay s t.clearOwed :=
  .cycle h ⟨rfl, rfl, rfl, rfl, rfl, .inl rfl, id⟩
theorem Stay.releaseZones {s t : State} (h : Stay s t) : Stay s t.releaseZones := .bed h ⟨rfl, rfl, rfl, rfl⟩
theorem Stay.windowZonesOn {s t : State} (h : Stay s t) : Stay s t.windowZonesOn := .bed h ⟨rfl, rfl, rfl, rfl⟩
theorem Stay.setLine {s t : State} {i : Fin 8} {l : Line} (h : Stay s t) : Stay s (t.setLine i l) :=
  .bed h ⟨rfl, rfl, rfl, rfl⟩
theorem Stay.invalidate {s t : State} (h : Stay s t) : Stay s t.invalidate := .marks h (alike_invalidate ..)
theorem Stay.openWindow {s t : State} {a : Option Int} (h : Stay s t) : Stay s (t.openWindow a) :=
  .marks h (alike_openWindow ..)
theorem Stay.mapWorklist {s t : State} {f : Worklist → Worklist} (h : Stay s t) : Stay s (t.mapWorklist f) :=
  .plan h id
theorem Stay.withdrawPlanner {s t : State} (h : Stay s t) : Stay s t.withdrawPlanner := .mapWorklist (.remove h)

theorem Stay.restTools {s t : State} (h : Stay s t) : Stay s t.restTools := by
  unfold State.restTools
  split
  · exact .raiseTools h
  · exact h

theorem mayGo_of {s : State} {c : CycleState} (h : s.cycle.state = c)
    (free : c ≠ .halted ∧ c ≠ .testcut := by decide) : s.mayGo := by
  unfold State.mayGo
  rw [h]
  exact free

theorem stay_advancePointer (s : State) (n : Nat) : Stay s (s.advancePointer n) := by
  unfold State.advancePointer
  extract_lets next
  split
  · exact .refl s
  · exact .marks (.plan (.cycle (.refl s) ⟨rfl, rfl, rfl, rfl, rfl, .inl rfl, id⟩) id) ⟨rfl, rfl, rfl, rfl, rfl⟩

theorem stay_recordSearch (s : State) (row : Nat) (side : Side) (found : Option BedPos) :
    Stay s (s.recordSearch row side found) := by
  unfold State.recordSearch
  extract_lets m mu
  have k : s.marks.Alike mu := alike_flight ..
  split
  · exact .marks (.refl s) k
  · split
    · exact .marks (.refl s) (k.trans ((alike_setMark ..).trans (alike_uncheckRow ..)))
    · split
      · exact .marks (.refl s) k
      · exact .marks (.refl s) (k.trans (alike_setMark ..))

/-! ### The planner -/

theorem stay_buildWorklist (s : State) : Stay s s.buildWorklist.1 := by
  unfold State.buildWorklist
  extract_lets k items w
  split
  · exact .plan (.refl s) id
  · exact .emit (.plan (.refl s) id)

theorem stay_planEnter (s : State) : Stay s s.planEnter.1 := by
  unfold State.planEnter
  split
  · split
    · exact .emit (.plan (.refl s) id)
    · exact stay_buildWorklist s
  · exact stay_buildWorklist s

theorem stay_testItemStart (s : State) (w : Worklist) (r : ItemStart) : Stay s (s.testItemStart w r).1 := by
  unfold State.testItemStart
  extract_lets notify halt s1 s2
  have noticed : Stay s s1 := by
    unfold s1
    split
    · exact .refl s
    · exact .emit (.refl s)
  exact .cycle noticed ⟨rfl, rfl, rfl, rfl, rfl, .inl rfl, id⟩

theorem stay_issueTravel (s : State) (w : Worklist) (it : Item) (free : s.cycle.state ≠ .halted) :
    Stay s (s.issueTravel w it).1 := by
  unfold State.issueTravel
  split
  · exact .plan (.refl s) id
  · exact .place (.plan (.refl s) id) free

theorem stay_issueCut (s : State) (w : Worklist) (i : Nat) (it : Item) (free : s.cycle.state ≠ .halted) :
    Stay s (s.issueCut w i it).1 := by
  unfold State.issueCut
  extract_lets pass n
  split
  · exact .plan (.refl s) id
  · exact .place (.plan (.refl s) id) free

theorem stay_issueItem (s : State) (w : Worklist) (i : Nat) (it : Item) (free : s.cycle.state ≠ .halted) :
    Stay s (s.issueItem w i it).1 := by
  unfold State.issueItem
  split
  · split
    · extract_lets r
      have tested := stay_testItemStart s w r
      split <;> rename_i t e <;> rw [e] at tested
      · exact tested.trans (stay_issueTravel t _ it (tested.state ▸ free))
      · exact .plan tested id
    · exact stay_issueTravel s _ it free
  · exact stay_issueCut s w i it free

theorem stay_issueOne (s : State) (free : s.cycle.state ≠ .halted) : Stay s s.issueOne.1 := by
  unfold State.issueOne
  split
  · exact .refl s
  · extract_lets w
    split
    · exact .plan (.refl s) id
    · split
      · exact .refl s
      · exact stay_issueItem s _ _ _ free

theorem stay_issueLoop (n : Nat) (s : State) (free : s.cycle.state ≠ .halted) : Stay s (s.issueLoop n).1 := by
  induction n generalizing s with
  | zero => exact .refl s
  | succ n ih =>
    have one := stay_issueOne s free
    unfold State.issueLoop
    split <;> rename_i t e <;> rw [e] at one
    · exact one.trans (ih t (one.state ▸ free))
    all_goals exact one

theorem stay_issue (s : State) (free : s.cycle.state ≠ .halted) : Stay s s.issue.1 := by
  unfold State.issue
  split
  · exact .refl s
  · split
    · exact .refl s
    · split
      · exact .refl s
      · exact stay_issueLoop _ s free

theorem stay_takeCut (s : State) (r : CutRef) : Stay s (s.takeCut r).1 := by
  unfold State.takeCut
  split
  · exact .refl s
  · split
    · exact .refl s
    · exact .plan (.refl s) id

theorem stay_firstCut (s : State) (i : Slot) : Stay s (s.firstCut i) := by
  unfold State.firstCut
  extract_lets p
  split
  · exact .setPanel (.refl s) rfl fun h => nomatch h
  · exact .refl s

theorem stay_foldEmit (k : Nat) (l : List Slot) (s : State) :
    Stay s (l.foldl (fun t i => t.emit (panelDoneNotice i k)) s) := by
  induction l generalizing s with
  | nil => exact .refl s
  | cons i l ih => exact (Stay.refl s).emit.trans (ih _)

theorem stay_completeWindow (s : State) : Stay s s.completeWindow.1 := by
  unfold State.completeWindow
  extract_lets k lp already s1 s2 done s3 s4
  have counted : Stay s s3 := by
    unfold s3
    split
    · exact .refl s
    · refine .trans (.mapWorklist (.store (.refl s) (sound_withPanels (fun i => ?_) fun i => ?_))) (stay_foldEmit ..)
      · rw [Table.get_map]
        exact Panel.chain_atWindowDone ..
      · rw [Table.get_map]
        exact Panel.atWindowDone_empty
  split
  · exact .emit counted
  · exact .emit (.emit counted)

theorem stay_jobDone (s : State) (j : FeedJob) : Stay s (s.jobDone j) := by
  unfold State.jobDone
  extract_lets t
  split
  · exact .cycle (stay_advancePointer s _) ⟨rfl, rfl, rfl, rfl, rfl, .inl rfl, id⟩
  · exact .clearOwed (stay_advancePointer s _)

/-! ### Faults, suspensions, holds, stops -/

theorem flow_raiseFault (s : State) (k : FaultKind) (d : FaultDetail) (e : Option Entry) :
    Flow s (s.raiseFault k d e) := by
  unfold State.raiseFault
  split
  · exact (Effect.fault s k d e ‹_›).flow
  · exact (Effect.followOn s k _ ‹_›).flow

theorem flow_setCycle (s : State) (c : CycleState) (free : s.mayGo) (plain : c.plain = true := by decide) :
    Flow s (s.setCycle c) := (Effect.go s c free plain).flow

theorem flow_go {s t : State} {c : CycleState} (h : Stay s t) (free : s.mayGo) (plain : c.plain = true := by decide) :
    Flow s (t.setCycle c) := h.flow.trans (flow_setCycle t c (h.mayGo free) plain)

theorem stay_standDown (s : State) : Stay s s.withdrawPlanner.raiseTools.clearReasons :=
  .clearReasons (.raiseTools (.withdrawPlanner (.refl s)))

theorem flow_takeSuspension (s : State) (r : ResumePoint) (free : s.mayGo) : Flow s (s.takeSuspension r) := by
  have down := stay_standDown s
  exact down.flow.trans (.tail (Effect.suspend _ _ (down.mayGo free)).flow (.emit _ _))

theorem flow_enterHeld (s : State) (r : HoldReason) (d : List Byte) (free : s.mayGo) : Flow s (s.enterHeld r d) := by
  have down := stay_standDown s
  exact down.flow.trans (.tail (Effect.hold _ r (down.mayGo free)).flow (.emit _ _))

theorem flow_stopEffect (s : State) (free : s.mayGo) : Flow s s.stopEffect := by
  unfold State.stopEffect
  extract_lets t
  have down : Stay s t := .clearReasons (.invalidate (.releaseZones (.raiseTools (.withdrawPlanner (.refl s)))))
  exact flow_go (.cycle down ⟨rfl, rfl, rfl, rfl, rfl, .inl rfl, id⟩) free

/-! ### Window completion -/

theorem flow_placeFeed (s : State) (d : Nat) (j : FeedJob) (free : s.mayGo) : Flow s (s.placeFeed d j) := by
  unfold State.placeFeed
  extract_lets t
  exact (flow_setCycle s .feeding free).trans
    (Stay.flow (.place (.cycle (.releaseZones (.refl _)) ⟨rfl, rfl, rfl, rfl, rfl, .inl rfl, id⟩) fun h => nomatch h))

theorem flow_runFeed (s : State) (free : s.mayGo) : Flow s s.runFeed := flow_placeFeed s _ _ free

theorem flow_endRun (s : State) (free : s.mayGo) : Flow s s.endRun := by
  unfold State.endRun
  extract_lets t
  exact flow_go (.cycle (.clearReasons (.releaseZones (.refl s))) ⟨rfl, rfl, rfl, rfl, rfl, .inl rfl, id⟩) free

theorem flow_windowDone (s : State) (free : s.mayGo) : Flow s s.windowDone := by
  have done := stay_completeWindow s
  unfold State.windowDone
  split <;> rename_i t e <;> rw [e] at done
  all_goals refine done.flow.trans ?_
  all_goals have free := done.mayGo free
  · split
    · exact flow_stopEffect t free
    · exact flow_endRun t free
  · split
    · exact flow_takeSuspension t _ free
    · split
      · exact flow_stopEffect t free
      · exact flow_runFeed t free

/-! ### Issuing and readying -/

theorem flow_suspendIfDrained (s : State) (free : s.mayGo) : Flow s s.suspendIfDrained := by
  unfold State.suspendIfDrained
  split
  · exact flow_takeSuspension s _ free
  · exact .refl

/-- An operation of the run that flows from every state in which a run may go. -/
def Flows (f : State → State) : Prop := ∀ s : State, s.mayGo → Flow s (f s)

theorem flow_issueWith {f : State → State} (onRefused : Flows f) : Flows (State.issueWith f) := by
  intro s free
  unfold State.issueWith
  extract_lets t
  have ready : Stay s t := .mapWorklist (.refl s)
  have issued := ready.trans (stay_issue t (ready.mayGo free).1)
  split
  rename_i u stop e
  rw [e] at issued
  have free := issued.mayGo free
  refine issued.flow.trans ?_
  split
  · exact flow_windowDone u free
  · split
    · exact onRefused u free
    · split
      · exact flow_suspendIfDrained u free
      · exact .refl

theorem flow_readyWith {f : State → State} (onReady : Flows f) (s : State) (free : s.mayGo) :
    Flow s (f (s.setCycle .cutting)) :=
  (flow_setCycle s .cutting free).trans (onReady _ (mayGo_of (c := .cutting) rfl))

theorem flow_checks {f : State → State} (onReady : Flows f) : Flows (State.checks f) := by
  intro s free
  unfold State.checks
  split
  · exact flow_enterHeld s _ _ free
  · split
    · exact flow_readyWith onReady s free
    · split
      · exact flow_enterHeld s _ _ free
      · extract_lets m t
        have checked : Stay s t :=
          .marks (.refl s)
            (MarkUnit.Alike.trans (b := { m with seam := none }) ⟨rfl, rfl, rfl, rfl, rfl⟩ (alike_checkSpan ..))
        refine checked.flow.trans ?_
        split
        · exact flow_enterHeld t _ _ (checked.mayGo free)
        · exact flow_readyWith onReady t (checked.mayGo free)

theorem mayGo_of_inReadying {s : State} (h : s.inReadying = true) : s.mayGo := by
  simp only [State.inReadying, Bool.and_eq_true, decide_eq_true_eq] at h
  exact mayGo_of h.1

/-- What follows a search result asks for no guard: outside the readying phase it is nothing. -/
theorem flow_afterSearch {f : State → State} (goOn : Flows f) (m : Option (Nat × Side)) (s : State) :
    Flow s (s.afterSearch m f) := by
  unfold State.afterSearch
  split
  · exact .refl
  · rename_i h
    have free : s.mayGo := mayGo_of_inReadying (by simpa using h)
    split
    · exact flow_stopEffect s free
    · split
      · exact flow_enterHeld s _ _ free
      · split
        · exact flow_takeSuspension s _ free
        · exact goOn s free

theorem flow_searchFrom {f : State → State} (onReady : Flows f) (n : Nat) : Flows (State.searchFrom f n) := by
  induction n with
  | zero => exact fun _ _ => .refl
  | succ n ih =>
    intro s free
    unfold State.searchFrom
    split
    · exact .refl
    · split
      · exact flow_checks onReady s free
      · split
        · exact .refl
        · extract_lets centre tried t
          have tries : s.marks.Alike tried := alike_setMark ..
          split
          · split
            · exact Stay.flow (.place (.marks (.refl s) (tries.trans (alike_flight ..))) free.1)
            · exact .refl
          · exact .trans (Stay.flow (.trans (.marks (.refl s) tries) (stay_recordSearch ..))) (flow_afterSearch ih _ _)

theorem flow_toReadying (s : State) (free : s.mayGo) : Flow s s.toReadying :=
  (flow_setCycle s .measuring free).trans
    (Stay.flow (.cycle (.refl _) ⟨rfl, rfl, rfl, rfl, rfl, .inr (.inl rfl), id⟩))

theorem mayGo_toReadying (s : State) : s.toReadying.mayGo := mayGo_of (c := .measuring) rfl

theorem flow_reopen : Flows State.reopen := fun s free =>
  have opened : Stay s (s.openWindow none) := .openWindow (.refl s)
  opened.flow.trans ((flow_toReadying _ (opened.mayGo free)).trans
    (flow_searchFrom (flow_issueWith fun _ _ => .refl) 3 _ (mayGo_toReadying _)))

theorem flow_issueNow : Flows State.issueNow := flow_issueWith flow_reopen

theorem flow_searchNow : Flows State.searchNow := flow_searchFrom flow_issueNow 3

theorem flow_continueReadying : Flows State.continueReadying := fun s free =>
  have continued : Stay s (s.withMarks s.marks.continued) := .marks (.refl s) (alike_continued _)
  continued.flow.trans ((flow_toReadying _ (continued.mayGo free)).trans
    (flow_searchNow _ (mayGo_toReadying _)))

/-! ### Settles and window entries -/

theorem flow_settleExpires (s : State) : Flow s s.settleExpires := by
  unfold State.settleExpires
  extract_lets c t
  have stopped : Stay s t := .cycle (.refl s) ⟨rfl, rfl, rfl, rfl, rfl, .inr (.inl rfl), id⟩
  split
  · rename_i h
    have free : t.mayGo := mayGo_of (stopped.state.trans h.1)
    refine stopped.flow.trans ?_
    split
    · exact flow_raiseFault ..
    · split
      · exact flow_takeSuspension t _ free
      · exact (flow_toReadying t free).trans (flow_searchNow _ (mayGo_toReadying _))
  · exact stopped.flow

theorem flow_beginSettle : Flows State.beginSettle := by
  intro s free
  unfold State.beginSettle
  extract_lets t c u
  have settling : Flow s u := (flow_setCycle s .measuring free).trans
    (Stay.flow (.cycle (.windowZonesOn (.refl _)) ⟨rfl, rfl, rfl, rfl, rfl, .inr (.inr rfl), id⟩))
  split
  · exact settling.trans (flow_settleExpires u)
  · exact settling

theorem flow_enterWindow (a : Option Int) : Flows (State.enterWindow a) := by
  intro s free
  have entered := stay_planEnter s
  unfold State.enterWindow
  split <;> rename_i t n e <;> rw [e] at entered
  · extract_lets u
    have opened : Stay s u := .openWindow entered
    refine opened.flow.trans ?_
    split
    · exact .trans (Stay.flow (.windowZonesOn (.refl u))) (flow_takeSuspension _ _ (opened.mayGo free))
    · exact flow_beginSettle u (opened.mayGo free)
  · exact .trans (Stay.flow (.openWindow entered)) (flow_enterHeld _ _ _ (entered.mayGo free))
  · exact entered.flow.trans (flow_windowDone t (entered.mayGo free))

theorem flow_startRun : Flows State.startRun := by
  intro s free
  unfold State.startRun
  split
  · split
    · exact flow_placeFeed s _ _ free
    · have advanced : Stay s (s.advancePointer s.cycle.owed).clearOwed := .clearOwed (stay_advancePointer ..)
      exact advanced.flow.trans (flow_enterWindow none _ (advanced.mayGo free))
  · exact flow_enterWindow none s free

/-! ### Resuming -/

theorem flow_resumeSuspended : Flows State.resumeSuspended := by
  intro s free
  unfold State.resumeSuspended
  split
  · split
    · exact flow_beginSettle s free
    · exact flow_continueReadying s free
    · exact flow_runFeed s free
  · exact flow_continueReadying s free

theorem flow_resumePlanFull : Flows State.resumePlanFull := by
  intro s free
  unfold State.resumePlanFull
  extract_lets built
  have stood : Stay s built.1 := by
    unfold built
    split
    · exact .refl s
    · exact stay_buildWorklist s
  clear_value built
  split <;> rename_i t n <;> dsimp only at stood
  all_goals refine stood.flow.trans ?_
  · exact flow_beginSettle t (stood.mayGo free)
  · exact flow_windowDone t (stood.mayGo free)
  · exact flow_enterHeld t _ _ (stood.mayGo free)

theorem flow_resumeHeld : Flows State.resumeHeld := by
  intro s free
  unfold State.resumeHeld
  split
  · exact flow_startRun s free
  · exact flow_resumePlanFull s free
  all_goals exact flow_continueReadying s free

theorem flow_pedal (s : State) : Flow s s.pedal := by
  unfold State.pedal
  split
  · rename_i h
    simp only [Bool.and_eq_true, decide_eq_true_eq] at h
    exact flow_resumeSuspended s (mayGo_of h.1)
  · split
    · rename_i h
      simp only [State.heldFor, Bool.and_eq_true, decide_eq_true_eq] at h
      exact flow_resumeHeld s (mayGo_of h.1.1)
    · exact .refl

/-! ### Completions -/

theorem flow_cutSafePoint (s : State) : Flow s s.cutSafePoint := by
  unfold State.cutSafePoint
  split
  · exact .refl
  · rename_i h
    have free := mayGo_of (not_not.mp h)
    split
    · exact flow_stopEffect s free
    · split
      · exact flow_takeSuspension s _ free
      · exact flow_suspendIfDrained s free

theorem flow_plannerCompletion (r : Option CutRef) (s : State) : Flow s (s.plannerCompletion r) := by
  unfold State.plannerCompletion
  split
  · exact .refl
  · rename_i inCutting
    have free := mayGo_of (not_not.mp inCutting)
    split
    rename_i t cut e
    have taken : Stay s t := by
      cases r with
      | none => cases e; exact .refl s
      | some r =>
        have e : s.takeCut r = (t, cut) := e
        have taken := stay_takeCut s r
        rw [e] at taken
        exact taken
    have issued := taken.trans (stay_issue t (taken.mayGo free).1)
    split
    rename_i u stop e2
    rw [e2] at issued
    extract_lets v
    have counted : Stay s v := by
      unfold v
      split
      · exact issued.trans (stay_firstCut u _)
      · exact issued
    refine counted.flow.trans ?_
    split
    · exact flow_windowDone v (counted.mayGo free)
    · split
      · exact flow_reopen v (counted.mayGo free)
      · exact flow_cutSafePoint v

theorem flow_testCutCompletion (s : State) : Flow s s.testCutCompletion := by
  unfold State.testCutCompletion
  split
  · split
    · exact (Effect.endTestCut s ‹_›).flow
    · exact Stay.flow (.cycle (.refl s) ⟨rfl, rfl, rfl, rfl, rfl, .inl rfl, id⟩)
  · exact .refl

theorem flow_moveCompletes (s : State) : Flow s s.moveCompletes := by
  unfold State.moveCompletes
  split
  · rename_i p t executing
    extract_lets a m b c
    have reached : Flow s b := (Effect.reach s _ t executing (.inl ⟨p, rfl⟩)).flow
    have acted : Flow b c := by
      unfold c
      split
      · exact flow_plannerCompletion none b
      all_goals exact .refl
    exact reached.trans (acted.trans (Stay.refl c).restTools.flow)
  · rename_i tool t r executing
    extract_lets a m b c
    have reached : Flow s b := (Effect.reach s _ t executing (.inr ⟨tool, r, rfl⟩)).flow
    have acted : Flow b c := by
      unfold c
      split
      · exact flow_plannerCompletion _ b
      · exact flow_testCutCompletion b
    exact reached.trans (acted.trans (Stay.refl c).restTools.flow)
  all_goals exact .refl

theorem flow_searchCompletes (found : Option BedPos) (s : State) (noFeed : s.feedExecuting = false) :
    Flow s (s.searchCompletes found) := by
  unfold State.searchCompletes
  extract_lets a b
  have ended : Flow s a := (Effect.endEntry s noFeed).flow
  have acted : Flow a b := by
    unfold b
    split
    · exact (stay_recordSearch ..).flow.trans (flow_afterSearch flow_searchNow _ _)
    · exact flow_afterSearch flow_searchNow _ _
  exact ended.trans (acted.trans (Stay.refl b).restTools.flow)

theorem flow_feedDelivered (count : Int) (s : State) : Flow s (s.feedDelivered count) := by
  unfold State.feedDelivered
  split
  · exact .refl
  · rename_i job _
    extract_lets t
    have done : Stay s t := stay_jobDone s job
    refine done.flow.trans ?_
    split
    · exact .refl
    · rename_i h
      have free : t.mayGo := mayGo_of (not_not.mp h)
      split
      · exact flow_setCycle t .idle free
      · split
        · exact flow_stopEffect t free
        · exact flow_enterWindow _ t free

/-- A FEED ends: its drive is stopped first (R129). -/
theorem flow_feedCompletes (s : State) : Flow s s.stopDrive.feedCompletes :=
  (Effect.endFeed s).flow.trans ((flow_feedDelivered _ _).trans (Stay.refl _).restTools.flow)

theorem flow_recomputeRows (s : State) : Flow s s.recomputeRows := by
  unfold State.recomputeRows
  extract_lets had t
  have applied : Flow s t := (Effect.marks s _ (sound_applyRowCount _ _)).flow
  split
  · rename_i h
    simp only [Bool.and_eq_true] at h
    exact applied.trans (flow_readyWith flow_issueNow t (mayGo_of_inReadying h.1.2))
  · exact applied

end Sys2Proof.Machine

namespace Sys2Proof.Machine

/-! ### Taking entries -/

theorem flow_completeHome (s : State) (h : s.homeExecuting = true) : Flow s s.completeHome := by
  unfold State.completeHome
  extract_lets a m b c
  have home : Flow s b := (Effect.home s h).flow
  refine home.trans (.trans ?_ (Stay.refl c).restTools.flow)
  unfold c
  split
  · rename_i homing
    exact flow_go (.refl b) (mayGo_of homing)
  · exact .refl

theorem flow_settleHome (s : State) (h : s.homeExecuting = true) : Flow s s.settleHome := by
  unfold State.settleHome
  split
  · exact flow_completeHome s h
  · exact .refl

theorem homeExecuting_startHome {s : State} (h : s.motion.queue.head? = some .home) :
    s.startHome.homeExecuting = true := by
  simp [State.homeExecuting, State.startHome, MotionUnit.executingEntry, State.raiseTools, State.startExecuting, h]

theorem flow_startHome (s : State) (start : s.mayStart .home) : Flow s s.startHome := by
  unfold State.startHome
  extract_lets a
  have moved : Flow s a := (Effect.startMove s .home _ start fun h => nomatch h).flow
  exact moved.trans (Stay.flow (.motion (.refl a) ⟨rfl, rfl, rfl, rfl, rfl, rfl, id⟩))

theorem flow_takeEntry (s : State) (e : Entry) (idle : s.motion.executing = false)
    (front : s.motion.queue.head? = some e) : Flow s (s.takeEntry e) := by
  unfold State.takeEntry
  split
  · exact flow_raiseFault ..
  · split
    · exact flow_raiseFault ..
    · rename_i passes
      have start : s.mayStart e := ⟨idle, front, passes⟩
      split
      · split
        · exact flow_raiseFault ..
        · exact (Effect.startFeed s _ start).flow
      · exact (flow_startHome s start).trans (flow_settleHome _ (homeExecuting_startHome front))
      · exact (Effect.startMove s _ _ start fun h => nomatch h).flow
      · exact (Effect.startMove s _ _ start fun h => nomatch h).flow
      · exact (Effect.startCut s _ _ _ _ start).flow

theorem flow_takeEntries (n : Nat) (s : State) : Flow s (s.takeEntries n) := by
  induction n generalizing s with
  | zero => exact .refl
  | succ n ih =>
    unfold State.takeEntries
    split
    · exact .refl
    · rename_i idle
      split
      · exact .refl
      · rename_i e rest front
        have took := flow_takeEntry s e (by simpa using idle) (by rw [front]; rfl)
        dsimp only
        split
        · exact took.trans (ih _)
        · exact took

/-! ### The events of the drive port -/

theorem feedExecuting_of_search {s : State} {r : Rect} (h : s.motion.executingEntry = some (.search r)) :
    s.feedExecuting = false := by
  unfold State.feedExecuting
  rw [h]

theorem flow_sensorReports (x y : Rat) (s : State) : Flow s (s.sensorReports x y) := by
  unfold State.sensorReports
  split
  · split
    · exact flow_searchCompletes _ s (feedExecuting_of_search ‹_›)
    · exact .refl
  · exact .refl

theorem flow_scanEnds (s : State) : Flow s s.scanEnds := by
  unfold State.scanEnds
  split
  · exact flow_searchCompletes _ s (feedExecuting_of_search ‹_›)
  · exact .refl

theorem flow_fullTravel (a : Axis) (s : State) : Flow s (s.fullTravel a) := by
  unfold State.fullTravel
  split
  · split
    · split
      · exact .refl
      · exact flow_raiseFault ..
    · exact .refl
  · exact .refl

theorem flow_encoderSteps (forward : Bool) (s : State) : Flow s (s.encoderSteps forward) := by
  unfold State.encoderSteps
  split
  · exact Stay.flow (.motion (.refl s) ⟨rfl, rfl, rfl, rfl, rfl, rfl, id⟩)
  · exact .refl

theorem flow_guardExpires (s : State) : Flow s s.guardExpires := by
  unfold State.guardExpires
  split
  · split
    · exact flow_raiseFault ..
    · exact .refl
  · exact .refl

theorem flow_slip (s : State) (d : FaultDetail) : Flow s (s.stopDrive.raiseFault .mediaSlip d none) := by
  unfold State.raiseFault
  split
  · exact (Effect.slip s d ‹_›).flow
  · rename_i r latched
    exact .tail (Effect.stopDrive s r latched).flow (.followOn _ _ r latched)

theorem flow_driveDone (s : State) : Flow s s.driveDone := by
  unfold State.driveDone
  split
  · split
    · exact flow_slip s _
    · exact flow_feedCompletes s
  · exact .refl

theorem flow_axesReport (x y : Int) (s : State) : Flow s (s.axesReport x y) := by
  unfold State.axesReport
  split
  · exact .refl
  · split
    · exact (Effect.follow s _ ‹_›).flow
    · exact .refl
  · exact .refl

/-! ### The input lines -/

theorem flow_homeRise (a : Axis) (s : State) (h : s.homeExecuting = true) : Flow s (s.homeRise a) := by
  unfold State.homeRise
  split
  · exact .refl
  · extract_lets h'
    have risen : Stay s (s.withMotion { s.motion with homing := some h' }) :=
      .motion (.refl s) ⟨rfl, rfl, rfl, rfl, rfl, rfl, id⟩
    exact risen.flow.trans (flow_settleHome _ h)

theorem flow_lineActs (i : Fin 8) (rise : Bool) (s : State) : Flow s (s.lineActs i rise) := by
  unfold State.lineActs
  split
  · exact flow_raiseFault ..
  · split
    · exact flow_raiseFault ..
    · exact .refl
  · split
    · exact flow_raiseFault ..
    · exact .refl
  · split
    · exact flow_raiseFault ..
    · exact .refl
  · exact flow_pedal s
  · split
    · exact flow_homeRise .x s ‹_›
    · exact .refl
  · split
    · exact flow_homeRise .y s ‹_›
    · exact .refl
  · exact .refl

theorem flow_takeLevel (i : Fin 8) (s : State) : Flow s (s.takeLevel i) := by
  unfold State.takeLevel
  extract_lets l t u
  have taken : Stay s t := .setLine (.refl s)
  have noticed : Stay s u := by
    unfold u
    by_cases enabled : (if l.wire then l.riseEn else l.fallEn) = true
    · rw [if_pos enabled]
      exact .emit taken
    · rw [if_neg enabled]
      exact taken
  split
  · exact taken.flow
  · exact noticed.flow.trans (flow_lineActs i _ u)

theorem flow_filterLine (i : Fin 8) (s : State) : Flow s (s.filterLine i) := by
  unfold State.filterLine
  extract_lets l
  split
  · exact Stay.flow (.setLine (.refl s))
  · split
    · exact flow_takeLevel i s
    · exact Stay.flow (.setLine (.refl s))

theorem flow_wireChange (i : Fin 8) (level : Bool) (s : State) : Flow s (s.wireChange i level) := by
  unfold State.wireChange
  extract_lets l
  split
  · exact .refl
  · exact .trans (Stay.flow (.setLine (.refl s))) (flow_filterLine i _)

theorem flow_filterExpires (i : Fin 8) (s : State) : Flow s (s.filterExpires i) := by
  unfold State.filterExpires
  split
  · exact flow_takeLevel i s
  · exact .refl

/-! ### The panel store -/

/-- Replacing one element of a list exchanges its block of a flat map. -/
theorem flatMap_set_perm {α β : Type} (f : α → List β) (b : α) :
    ∀ (l : List α) (i : Nat) (h : i < l.length), (f l[i] ++ (l.set i b).flatMap f).Perm (f b ++ l.flatMap f)
  | a :: l, 0, _ => by
    simp only [List.getElem_cons_zero, List.set_cons_zero, List.flatMap_cons, ← List.append_assoc]
    exact List.perm_append_comm.append_right _
  | a :: l, i + 1, h => by
    have below : i < l.length := Nat.lt_of_succ_lt_succ h
    have ih := flatMap_set_perm f b l i below
    simp only [List.getElem_cons_succ, List.set_cons_succ, List.flatMap_cons]
    calc f l[i] ++ (f a ++ (l.set i b).flatMap f)
        _ |>.Perm (f a ++ (f l[i] ++ (l.set i b).flatMap f)) := by
          simp only [← List.append_assoc]
          exact List.perm_append_comm.append_right _
        _ |>.Perm (f a ++ (f b ++ l.flatMap f)) := ih.append_left _
        _ |>.Perm (f b ++ (f a ++ l.flatMap f)) := by
          simp only [← List.append_assoc]
          exact List.perm_append_comm.append_right _


/-- A store with one slot's record and the free list replaced has its blocks in place, when the free list and the slot's
chain exchange blocks. -/
theorem blocksSafe_set {st : PanelStore} {i : Slot} {p : Panel} {free : List Nat}
    (exchange : (free ++ p.chain).Perm (st.free ++ (st.panels.get i).chain)) (h : st.blocksSafe) :
    (free ++ (st.panels.set i p).cells.flatMap (·.chain)).Perm (List.range Config.blocks) := by
  have swap := flatMap_set_perm (·.chain) p st.panels.cells i.val (st.panels.size.symm ▸ i.isLt)
  refine .trans ((List.perm_append_left_iff (st.panels.get i).chain).mp ?_) h
  calc (st.panels.get i).chain ++ (free ++ (st.panels.set i p).cells.flatMap (·.chain))
      _ |>.Perm (free ++ ((st.panels.get i).chain ++ (st.panels.set i p).cells.flatMap (·.chain))) :=
        List.perm_append_comm_assoc ..
      _ |>.Perm (free ++ (p.chain ++ st.panels.cells.flatMap (·.chain))) := swap.append_left _
      _ |>.Perm ((free ++ p.chain) ++ st.panels.cells.flatMap (·.chain)) := .of_eq (List.append_assoc ..).symm
      _ |>.Perm ((st.free ++ (st.panels.get i).chain) ++ st.panels.cells.flatMap (·.chain)) := exchange.append_right _
      _ |>.Perm (((st.panels.get i).chain ++ st.free) ++ st.panels.cells.flatMap (·.chain)) :=
        List.perm_append_comm.append_right _
      _ |>.Perm ((st.panels.get i).chain ++ st.allBlocks) := .of_eq (List.append_assoc ..)

theorem emptySlotsBare_set {st : PanelStore} {i : Slot} {p : Panel} (bare : p.state = .empty → p.chain = [])
    (h : st.emptySlotsBare) (j : Slot) (empty : ((st.panels.set i p).get j).state = .empty) :
    ((st.panels.set i p).get j).chain = [] := by
  by_cases e : i = j
  · subst e
    rw [Table.get_set_self] at empty ⊢
    exact bare empty
  · rw [Table.get_set_ne _ _ e] at empty ⊢
    exact h j empty

/-- Soundness names the panel table, the contour store and the free list, not the loader. -/
theorem sound_loader {st : PanelStore} (o : Option OpenOutline) (h : st.sound) :
    ({ st with loader := o } : PanelStore).sound := h

theorem sound_emptySlot {st : PanelStore} (i : Slot) (h : st.sound) : (st.emptySlot i).sound := by
  obtain ⟨wf, blocks, bare⟩ := h
  exact ⟨wf, blocksSafe_set (.of_eq (List.append_nil _)) blocks, emptySlotsBare_set (fun _ => rfl) bare⟩

theorem sound_abandon {st : PanelStore} (o : OpenOutline) (h : st.sound) : (st.abandon o).sound :=
  sound_loader none (sound_emptySlot o.slot h)

theorem sound_linkCleared {st : PanelStore} (h : st.sound) : st.linkCleared.sound := by
  unfold PanelStore.linkCleared
  split
  · exact sound_abandon _ h
  · exact h

/-- An EMPTY slot holds no block, so the chain it takes comes from the free list alone (R12). -/
theorem sound_openSlot {st : PanelStore} {i : Slot} (n : Nat) (g : Settings)
    (empty : (st.panels.get i).state = .empty) (h : st.sound) : (st.openSlot i n g).sound := by
  obtain ⟨wf, blocks, bare⟩ := h
  refine ⟨wf, blocksSafe_set ?_ blocks, emptySlotsBare_set (fun h => nomatch h) bare⟩
  rw [bare i empty, List.append_nil]
  exact List.perm_append_comm.trans (.of_eq (List.take_append_drop ..))

theorem sound_stream {st : PanelStore} (o : OpenOutline) (first : Nat) (vs : List RawVertex) (h : st.sound) :
    (st.stream o first vs).sound := by
  unfold PanelStore.stream
  split
  · exact h
  · split
    · exact h
    · obtain ⟨wf, blocks, bare⟩ := h
      exact ⟨wf_storeFrom _ _ _ wf, blocks, bare⟩

/-- A table of records without blocks adds none to the free list. -/
theorem freshBlocks (p : Panel) (bare : p.chain = []) (n : Nat) (free : List Nat) :
    free ++ (Table.fill n p).cells.flatMap (·.chain) = free := by
  unfold Table.fill
  rw [List.flatMap_replicate, bare, List.flatten_replicate_nil, List.append_nil]

theorem sound_cleared {st : PanelStore} (h : st.sound) : st.cleared.sound := by
  refine ⟨h.1, ?_, fun i _ => ?_⟩
  · unfold PanelStore.blocksSafe PanelStore.allBlocks PanelStore.cleared
    generalize List.range Config.blocks = free
    rw [freshBlocks Panel.emptyRecord rfl]
  · show ((Table.fill 96 Panel.emptyRecord).get i).chain = []
    rw [Table.get_fill]
    rfl

theorem sound_mapPanels {st : PanelStore} {f : Slot → Panel → Panel} (chain : ∀ i p, (f i p).chain = p.chain)
    (empty : ∀ i p, (f i p).state = .empty → p.state = .empty) (h : st.sound) :
    ({ st with panels := st.panels.map f } : PanelStore).sound := by
  refine sound_withPanels (fun i => ?_) (fun i => ?_) h
  · rw [Table.get_map]
    exact chain i _
  · rw [Table.get_map]
    exact empty i _

theorem atNestDone_chain (draft : List DraftEntry) (i : Slot) (p : Panel) : (p.atNestDone draft i).chain = p.chain := by
  unfold Panel.atNestDone
  split
  · unfold Panel.takeDraft
    split <;> rfl
  · split <;> rfl

theorem atNestDone_empty (draft : List DraftEntry) (i : Slot) (p : Panel)
    (h : (p.atNestDone draft i).state = .empty) : p.state = .empty := by
  unfold Panel.atNestDone Panel.takeDraft at h
  split at h
  · split at h
    · cases h
    · cases h
    · cases h
    · exact h
  · split at h <;> exact h

/-! ### The nest unit -/

theorem flow_nestCompletes (run : NestRun) (s : State) : Flow s (s.nestCompletes run) := by
  unfold State.nestCompletes
  extract_lets ps t nu
  have written : Stay s t := .store (.refl s) (sound_mapPanels (atNestDone_chain _) (atNestDone_empty _))
  have idle : Stay s (t.withNest { t.nest with run := none }) := .nest written id
  exact idle.flow.trans (.tail (flow_recomputeRows _) (.emit _ _))

theorem flow_settleNest (s : State) : Flow s s.settleNest := by
  unfold State.settleNest
  split
  · split
    · exact .refl
    · exact flow_nestCompletes _ s
  · exact .refl

theorem flow_nestStep (s : State) : Flow s s.nestStep := by
  unfold State.nestStep
  split
  · exact .refl
  · split
    · exact .refl
    · exact Stay.flow (.nest (.refl s) id)

theorem flow_dropNest (s : State) : Flow s s.dropNest := Stay.flow (.nest (.refl s) id)

end Sys2Proof.Machine

namespace Sys2Proof.Machine

/-! ### What the owners make of a request -/

/-- The owner's action flows. -/
def ActFlows (act : State → Acted) : Prop := ∀ s, Flow s (act s).st

/-- A refusal leaves the state as it is. -/
theorem flow_answer (s : State) (status : Status) : Flow s (s.answer status).st := .refl

theorem flow_actOpenOutline (slot : Byte) (n bleed : Half) (tool flags order passes : Byte) (label : List Byte) :
    ActFlows (actOpenOutline slot n bleed tool flags order passes label) := by
  intro s
  unfold actOpenOutline
  split
  · exact .refl
  · split
    · exact .refl
    · split
      · extract_lets need
        split
        · exact .refl
        · split
          · exact .refl
          · rename_i empty
            split
            · exact .refl
            · exact Stay.flow (.store (.refl s) (sound_openSlot _ _ (not_not.mp empty)))
      · exact .refl

theorem flow_failClose (o : OpenOutline) (status : Status) (kind index : Nat) (s : State) :
    Flow s (failClose o status kind index s).st := Stay.flow (.store (.refl s) (sound_abandon o))

theorem flow_actCloseOutline : ActFlows actCloseOutline := by
  intro s
  unfold actCloseOutline
  split
  · exact .refl
  · extract_lets p vs box
    split
    · exact flow_failClose ..
    · split
      · exact flow_failClose ..
      · split
        · exact flow_failClose ..
        · split
          · exact flow_failClose ..
          · exact Stay.flow (.store (.refl s) fun h => sound_loader none (sound_setPanel rfl (fun h => nomatch h) h))

theorem flow_actAbandonOutline : ActFlows actAbandonOutline := by
  intro s
  unfold actAbandonOutline
  split
  · exact .refl
  · exact Stay.flow (.store (.refl s) (sound_abandon _))

theorem flow_actSetPanel (slot : Byte) (bleed : Half) (tool flags order passes : Byte) (label : List Byte) :
    ActFlows (actSetPanel slot bleed tool flags order passes label) := by
  intro s
  unfold actSetPanel
  split
  · exact .refl
  · split
    · extract_lets p
      repeat' split
      · exact .refl
      · exact .refl
      · exact .refl
      · exact .refl
      · exact Stay.flow (.setPanel (.refl s) rfl id)
    · exact .refl

theorem flow_thenRows {s t : State} (h : Stay s t) : Flow s t.recomputeRows := h.flow.trans (flow_recomputeRows t)

theorem flow_actDeletePanel (slot : Byte) : ActFlows (actDeletePanel slot) := by
  intro s
  unfold actDeletePanel
  split
  · exact .refl
  · split
    · exact .refl
    · rename_i i _
      extract_lets p t data
      have emptied : Stay s t := .store (.refl s) (sound_emptySlot i)
      split
      · exact .refl
      · split
        · exact .refl
        · show Flow s (if p.state = .placed then t.recomputeRows else t)
          split
          · exact flow_thenRows emptied
          · exact emptied.flow

theorem flow_actNest (flags : Byte) : ActFlows (actNest flags) := by
  intro s
  unfold actNest
  split
  · exact .refl
  · split
    · exact .refl
    · split
      · exact .refl
      · exact Stay.flow (.nest (.refl s) id)

theorem flow_actNestAbort : ActFlows actNestAbort := by
  intro s
  unfold actNestAbort
  split
  · exact .tail (flow_dropNest s) (.emit _ _)
  · exact .refl

theorem flow_actPlace (slot rotation : Byte) (x y : Word) : ActFlows (actPlace slot rotation x y) := by
  intro s
  unfold actPlace
  split
  · exact .refl
  · split
    · exact .refl
    · split
      · extract_lets p pl t
        repeat' split
        · exact .refl
        · exact .refl
        · exact .refl
        · exact .refl
        · exact .refl
        · exact .refl
        · exact flow_thenRows (.setPanel (.refl s) rfl fun h => nomatch h)
      · exact .refl

theorem flow_actUnplace (slot : Byte) : ActFlows (actUnplace slot) := by
  intro s
  unfold actUnplace
  split
  · exact .refl
  · split
    · exact .refl
    · split
      · exact .refl
      · extract_lets p t
        repeat' split
        · exact .refl
        · exact .refl
        · exact .refl
        · exact flow_thenRows (.setPanel (.refl s) rfl fun h => nomatch h)

theorem flow_actPin (slot : Byte) : ActFlows (actPin slot) := by
  intro s
  unfold actPin
  split
  · exact .refl
  · split
    · exact .refl
    · split
      · exact .refl
      · extract_lets p
        repeat' split
        · exact .refl
        · exact .refl
        · exact .refl
        · exact Stay.flow (.setPanel (.refl s) rfl id)

theorem flow_actUnpin (slot : Byte) : ActFlows (actUnpin slot) := by
  intro s
  unfold actUnpin
  split
  · exact .refl
  · split
    · exact .refl
    · split
      · exact .refl
      · extract_lets p
        repeat' split
        · exact .refl
        · exact .refl
        · exact .refl
        · exact Stay.flow (.setPanel (.refl s) rfl id)

theorem flow_actCommit (mode : Byte) (slots : List Byte) : ActFlows (actCommit mode slots) := by
  intro s
  unfold actCommit
  split
  · exact .refl
  · split
    · exact .refl
    · split
      · exact .refl
      · extract_lets fresh
        repeat' split
        · exact .refl
        · exact .refl
        · exact .refl
        · refine Stay.flow (.store (.refl s) (sound_mapPanels (fun i p => ?_) fun i p => ?_))
          · split <;> rfl
          · split <;> exact id

theorem flow_actUncommit (slot : Byte) : ActFlows (actUncommit slot) := by
  intro s
  unfold actUncommit
  split
  · exact .refl
  · split
    · exact .refl
    · split
      · exact .refl
      · extract_lets p
        repeat' split
        · exact .refl
        · exact .refl
        · exact .refl
        · exact .refl
        · exact .refl
        · exact Stay.flow (.setPanel (.refl s) rfl id)

/-! ### The cycle controller's requests -/

theorem flow_actSetBreak (index kind argument action : Byte) : ActFlows (actSetBreak index kind argument action) := by
  intro s
  unfold actSetBreak
  split
  · split
    · split
      · exact .refl
      · exact Stay.flow (.cycle (.refl s) ⟨rfl, rfl, rfl, rfl, rfl, .inl rfl, id⟩)
    · exact .refl
  · split
    · split
      · exact .refl
      · split
        · exact .refl
        · exact Stay.flow (.cycle (.refl s) ⟨rfl, rfl, rfl, rfl, rfl, .inl rfl, id⟩)
    · exact .refl

theorem flow_actClearFault : ActFlows actClearFault := by
  intro s
  unfold actClearFault
  split
  · exact .refl
  · split
    · exact .refl
    · exact (Effect.clearFault s _ ‹_›).flow

theorem flow_actHome : ActFlows actHome := by
  intro s
  unfold actHome
  split
  · exact .refl
  · split
    · exact .refl
    · rename_i idle
      split
      · exact .refl
      · split
        · exact .refl
        · exact (flow_go (.refl s) (mayGo_of (not_not.mp idle))).trans
            (Stay.flow (.place (.refl _) fun h => nomatch h))

theorem flow_actStartCut : ActFlows actStartCut := by
  intro s
  unfold actStartCut
  split
  · exact .refl
  · split
    · exact .refl
    · rename_i idle
      repeat' split
      · exact .refl
      · exact .refl
      · exact .refl
      · exact .refl
      · have active : Stay s (s.withCycle { s.cycle with runActive := true }) :=
          .cycle (.refl s) ⟨rfl, rfl, rfl, rfl, rfl, .inl rfl, id⟩
        exact active.flow.trans (flow_startRun _ (active.mayGo (mayGo_of (not_not.mp idle))))

theorem flow_actSuspend : ActFlows actSuspend := by
  intro s
  unfold actSuspend
  split
  · split
    · exact .refl
    · split
      · exact .refl
      · exact Stay.flow (.cycle (.refl s) ⟨rfl, rfl, rfl, rfl, rfl, .inl rfl, id⟩)
  · split <;> exact .refl

theorem flow_cancelSuspension (s : State) : Flow s s.cancelSuspension := by
  unfold State.cancelSuspension
  extract_lets t
  have cleared : Stay s t := .clearReasons (.refl s)
  split
  · rename_i h
    simp only [Bool.and_eq_true, decide_eq_true_eq] at h
    exact cleared.flow.trans (flow_issueNow t (cleared.mayGo (mayGo_of h.2)))
  · exact cleared.flow

theorem flow_actResume : ActFlows actResume := by
  intro s
  unfold actResume
  split
  · split
    · exact flow_cancelSuspension s
    · exact .refl
  · split
    · rename_i standing
      split
      · exact .refl
      · split
        · exact .refl
        · split
          · rename_i suspended
            exact flow_resumeSuspended s (mayGo_of suspended)
          · rename_i notSuspended
            exact flow_resumeHeld s (mayGo_of (standing.resolve_left notSuspended))
    · exact .refl

theorem runUnderWay_mayGo {s : State} (h : s.runUnderWay = true) : s.mayGo := by
  rcases runUnderWay_iff.mp h with h | h | ⟨h, _⟩
  all_goals exact mayGo_of h

theorem flow_setStop (s : State) (free : s.mayGo) : Flow s s.setStop := by
  unfold State.setStop
  extract_lets t c u
  have stopping : Stay s u :=
    .cycle (.withdrawPlanner (.clearReasons (.refl s))) ⟨rfl, rfl, rfl, rfl, rfl, .inl rfl, id⟩
  split
  · exact stopping.flow
  · exact stopping.flow.trans (flow_stopEffect u (stopping.mayGo free))

theorem flow_actStopCut : ActFlows actStopCut := by
  intro s
  unfold actStopCut
  split
  · rename_i standing
    exact flow_stopEffect s (standing.elim (fun h => mayGo_of h) fun h => mayGo_of h)
  · split
    · rename_i running
      split
      · exact .refl
      · exact flow_setStop s (runUnderWay_mayGo running)
    · exact .refl

theorem stay_skipPanel (i : Slot) (s : State) : Stay s (s.skipPanel i) :=
  .mapWorklist (.setPanel (.refl s) rfl fun h => nomatch h)

theorem flow_actSkipPanel (slot : Byte) : ActFlows (actSkipPanel slot) := by
  intro s
  unfold actSkipPanel
  split
  · exact .refl
  · rename_i i _
    split
    · exact .refl
    · split
      · exact .refl
      · split
        · exact .refl
        · split
          · exact .refl
          · extract_lets count t
            have skipped : Stay s t := stay_skipPanel i s
            split
            · exact (skipped.trans (stay_buildWorklist t)).flow
            · exact skipped.flow

@[simp] theorem State.st_done (s : State) : s.done.st = s := rfl

theorem flow_startTestCut (t : Tool) (n : Nat) (p : BedPos) (s : State) (standing : s.standing = true) :
    Flow s (s.startTestCut t n p) := by
  have inTest : Flow s _ := (Effect.testCut s standing).flow
  refine inTest.trans (Stay.flow (.place (.place (.place (.place (.place (.refl _) ?_) ?_) ?_) ?_) ?_))
  all_goals exact fun h => nomatch h

theorem flow_actTestCut (tool : Byte) (size : Half) (x y : Word) : ActFlows (actTestCut tool size x y) := by
  intro s
  unfold actTestCut
  split
  · exact .refl
  · split
    · exact .refl
    · rename_i standing
      split
      · exact .refl
      · rename_i t n p _
        split
        · exact .refl
        · split
          · exact .refl
          · split
            · exact .refl
            · have standing : s.standing = true := by
                rw [Bool.not_eq_true', Bool.not_eq_false] at standing
                exact standing
              rw [State.st_done]
              exact flow_startTestCut t n p s standing

theorem flow_actJog (x y : Word) : ActFlows (actJog x y) := by
  intro s
  unfold actJog
  split
  · exact .refl
  · rename_i notHalted
    repeat' split
    · exact .refl
    · exact .refl
    · exact .refl
    · exact .refl
    · exact .refl
    · exact Stay.flow (.place (.refl s) notHalted)

theorem flow_startFeedRequest (n : Nat) (s : State) (free : s.mayGo) : Flow s (s.startFeedRequest n) := by
  unfold State.startFeedRequest
  split
  · exact flow_go (.clearOwed (stay_advancePointer s _)) free
  · exact flow_placeFeed s _ _ free

theorem flow_actFeed (n : Byte) : ActFlows (actFeed n) := by
  intro s
  unfold actFeed
  split
  · exact .refl
  · split
    · exact .refl
    · rename_i idle
      repeat' split
      · exact .refl
      · exact .refl
      · exact .refl
      · exact flow_startFeedRequest _ s (mayGo_of (not_not.mp idle))

theorem Stay.marksSound {s t : State} {x : MarkUnit} (h : Stay s t) (sound : t.marks.sound → x.sound) :
    Stay s (t.withMarks x) := h.trans ⟨(Effect.marks t x sound).flow, rfl⟩

theorem flow_clearJob (s : State) : Flow s s.clearJob := by
  have stored : Stay s ((s.withStore s.store.cleared).withNest { s.nest with skyline := [] }) :=
    .nest (.store (.refl s) sound_cleared) id
  have marks : s.marks.sound → s.marks.cleared.sound := fun ⟨size, geom, seam, _⟩ => ⟨size, geom, seam, rfl⟩
  have cleared : Stay s (((s.withStore s.store.cleared).withNest { s.nest with skyline := [] }).withMarks
      s.marks.cleared) := .marksSound stored marks
  exact Stay.flow (.cycle (.plan cleared id) ⟨rfl, rfl, rfl, rfl, rfl, .inl rfl, id⟩)

theorem flow_actJobClear : ActFlows actJobClear := by
  intro s
  unfold actJobClear
  repeat' split
  · exact .refl
  · exact .refl
  · exact .refl
  · exact .refl
  · exact flow_clearJob s

/-! ### The mark requests -/

theorem stay_giveMark (row : Nat) (side : Side) (pos : BedPos) (s : State) : Stay s (s.giveMark row side pos) := by
  unfold State.giveMark
  split
  · exact .marks (.refl s) ((alike_setMark ..).trans (alike_uncheckRow ..))
  · exact .refl s

theorem flow_actMarkSet (row side : Byte) (x y : Word) : ActFlows (actMarkSet row side x y) := by
  intro s
  unfold actMarkSet
  split
  · exact .refl
  · extract_lets t
    repeat' split
    · exact .refl
    · exact .refl
    · exact .refl
    · exact (stay_giveMark ..).flow

theorem flow_actMarkTake (row side : Byte) : ActFlows (actMarkTake row side) := by
  intro s
  unfold actMarkTake
  split
  · exact .refl
  · repeat' split
    · exact .refl
    · exact .refl
    · exact .refl
    · exact .refl
    · exact .refl
    · exact .refl
    · exact (stay_giveMark ..).flow

theorem heldFor_mayGo {s : State} {r : HoldReason} (h : s.heldFor r = true) : s.mayGo := by
  simp only [State.heldFor, Bool.and_eq_true, decide_eq_true_eq] at h
  exact mayGo_of h.1

theorem heldReadying_mayGo {s : State} (h : s.heldReadying = true) : s.mayGo := by
  simp only [State.heldReadying, Bool.or_eq_true] at h
  rcases h with (h | h) | h
  all_goals exact heldFor_mayGo h

theorem flow_actAcceptSeam : ActFlows actAcceptSeam := by
  intro s
  unfold actAcceptSeam
  split
  · exact .refl
  · rename_i held
    have free : s.mayGo := heldFor_mayGo (by simpa using held)
    split
    · exact .refl
    · split
      · exact .refl
      · have accepted : Stay s (s.withMarks { s.marks with seam := none }) := .marks (.refl s) ⟨rfl, rfl, rfl, rfl, rfl⟩
        exact accepted.flow.trans (flow_continueReadying _ (accepted.mayGo free))

theorem stay_unreadWindow (s : State) : Stay s s.unreadWindow :=
  .marks (.refl s) ((alike_unreadSpan ..).trans (alike_flight ..))

theorem flow_actRemeasure : ActFlows actRemeasure := by
  intro s
  unfold actRemeasure
  split
  · exact (stay_unreadWindow s).flow
  · split
    · exact .refl
    · rename_i held
      have free : s.mayGo := heldReadying_mayGo (by simpa using held)
      split
      · exact .refl
      · split
        · exact .refl
        · exact (stay_unreadWindow s).flow.trans (flow_continueReadying _ ((stay_unreadWindow s).mayGo free))

/-! ### Parameters -/

/-- A value taken by its owner lies in the range it was tested against. -/
theorem flow_writeRange {lo hi held : Nat} {value : Int} {write : Nat → State} {s : State}
    (writes : ∀ n, inRange lo hi n = true → Flow s (write n)) : Flow s (writeRange lo hi held value write s).st := by
  unfold writeRange
  split
  · exact .refl
  · rename_i inside
    split
    · exact .refl
    · refine writes _ ?_
      simp only [inRange, Bool.and_eq_true, decide_eq_true_eq]
      omega

theorem flow_writeLayout {lo hi held : Nat} {clash : Bool} {value : Int} {lp : LayoutParams} {s : State}
    (ranges : inRange lo hi value.toNat = true → clash = false → s.nest.params.inRanges = true → lp.inRanges = true) :
    Flow s (writeLayout lo hi held clash value lp s).st := by
  unfold writeLayout
  split
  · exact .refl
  · split
    · exact .refl
    · rename_i inside
      split
      · exact .refl
      · split
        · exact .refl
        · have within : inRange lo hi value.toNat = true := by
            simp only [inRange, Bool.and_eq_true, decide_eq_true_eq]
            omega
          have noClash : clash = false := by simpa using fun h => inside (.inr (.inr h))
          exact Stay.flow (.nest (.refl s) (ranges within noClash))

theorem flow_writeFilter (i : Fin 8) (f : Filter) (s : State) : Flow s (s.writeFilter i f) :=
  .trans (Stay.flow (.setLine (.refl s))) (flow_filterLine i _)



theorem LayoutParams.inRanges_iff (p : LayoutParams) : p.inRanges = true ↔ inRange 30000 162000 p.mediaWidth = true ∧
    inRange 500 5000 p.marginSide = true ∧ inRange 1000 50000 p.lead = true ∧
    inRange 25000 100000 p.markPitch = true ∧ inRange 50000 250000 p.windowLength = true ∧
    inRange 0 5000 p.gap = true ∧ p.markPitch ≤ p.windowLength := by
  simp only [LayoutParams.inRanges, Bool.and_eq_true, decide_eq_true_eq, and_assoc]

theorem MotionParams.inRanges_iff (p : MotionParams) : p.inRanges = true ↔ inRange 20 600 p.kissPressure = true ∧
    inRange 100 1500 p.thruPressure = true ∧ inRange 10 1000 p.kissSpeed = true ∧
    inRange 10 1000 p.thruSpeed = true ∧ inRange 50 1500 p.travelSpeed = true ∧ inRange 10 1000 p.slipTol = true ∧
    inRange 50 2000 p.feedGuardTime = true := by
  simp only [MotionParams.inRanges, Bool.and_eq_true, and_assoc]

/-- New motion parameters, in their ranges where the old ones were (R122). -/
theorem flow_motionParams {s : State} {p : MotionParams} (h : s.motion.params.inRanges = true → p.inRanges = true) :
    Flow s (s.withMotion { s.motion with params := p }) :=
  Stay.flow (.motion (.refl s) ⟨rfl, rfl, rfl, rfl, rfl, rfl, h⟩)

/-- Each owner writes a value of the parameter's range, and that parameter alone (R24, R54, R73, R93, R122). -/
theorem flow_writeParam (code index : Byte) (v : Int) (s : State) : Flow s (s.writeParam code index v).st := by
  unfold State.writeParam
  extract_lets np mp n
  split
  · refine flow_writeLayout fun within _ h => ?_
    obtain ⟨_, side, lead, pitch, length, gap, fits⟩ := (LayoutParams.inRanges_iff _).mp h
    exact (LayoutParams.inRanges_iff _).mpr ⟨within, side, lead, pitch, length, gap, fits⟩
  · refine flow_writeLayout fun within _ h => ?_
    obtain ⟨width, _, lead, pitch, length, gap, fits⟩ := (LayoutParams.inRanges_iff _).mp h
    exact (LayoutParams.inRanges_iff _).mpr ⟨width, within, lead, pitch, length, gap, fits⟩
  · refine flow_writeLayout fun within _ h => ?_
    obtain ⟨width, side, _, pitch, length, gap, fits⟩ := (LayoutParams.inRanges_iff _).mp h
    exact (LayoutParams.inRanges_iff _).mpr ⟨width, side, within, pitch, length, gap, fits⟩
  · refine flow_writeLayout fun within noClash h => ?_
    obtain ⟨width, side, lead, _, length, gap, _⟩ := (LayoutParams.inRanges_iff _).mp h
    exact (LayoutParams.inRanges_iff _).mpr
      ⟨width, side, lead, within, length, gap, Nat.le_of_not_lt (decide_eq_false_iff_not.mp noClash)⟩
  · refine flow_writeLayout fun within noClash h => ?_
    obtain ⟨width, side, lead, pitch, _, gap, _⟩ := (LayoutParams.inRanges_iff _).mp h
    exact (LayoutParams.inRanges_iff _).mpr
      ⟨width, side, lead, pitch, within, gap, Nat.le_of_not_lt (decide_eq_false_iff_not.mp noClash)⟩
  · refine flow_writeLayout fun within _ h => ?_
    obtain ⟨width, side, lead, pitch, length, _, fits⟩ := (LayoutParams.inRanges_iff _).mp h
    exact (LayoutParams.inRanges_iff _).mpr ⟨width, side, lead, pitch, length, within, fits⟩
  · exact flow_writeRange fun n within => Stay.flow (.plan (.refl s) fun ⟨_, kiss, thru⟩ => ⟨within, kiss, thru⟩)
  · exact flow_writeRange fun n within => Stay.flow (.plan (.refl s) fun ⟨weed, _, thru⟩ => ⟨weed, within, thru⟩)
  · exact flow_writeRange fun n within => Stay.flow (.plan (.refl s) fun ⟨weed, kiss, _⟩ => ⟨weed, kiss, within⟩)
  · exact flow_writeRange fun n within =>
      Stay.flow (.marksSound (.refl s) fun ⟨_, geom, seam, bands⟩ => ⟨within, geom, seam, bands⟩)
  · exact flow_writeRange fun n within =>
      Stay.flow (.marksSound (.refl s) fun ⟨size, _, seam, bands⟩ => ⟨size, within, seam, bands⟩)
  · exact flow_writeRange fun n within =>
      Stay.flow (.marksSound (.refl s) fun ⟨size, geom, _, bands⟩ => ⟨size, geom, within, bands⟩)
  · refine flow_writeRange fun n within => flow_motionParams fun h => ?_
    obtain ⟨_, thru, kissV, thruV, travel, slip, feedGuard⟩ := (MotionParams.inRanges_iff _).mp h
    exact (MotionParams.inRanges_iff _).mpr ⟨within, thru, kissV, thruV, travel, slip, feedGuard⟩
  · refine flow_writeRange fun n within => flow_motionParams fun h => ?_
    obtain ⟨kiss, _, kissV, thruV, travel, slip, feedGuard⟩ := (MotionParams.inRanges_iff _).mp h
    exact (MotionParams.inRanges_iff _).mpr ⟨kiss, within, kissV, thruV, travel, slip, feedGuard⟩
  · refine flow_writeRange fun n within => flow_motionParams fun h => ?_
    obtain ⟨kiss, thru, _, thruV, travel, slip, feedGuard⟩ := (MotionParams.inRanges_iff _).mp h
    exact (MotionParams.inRanges_iff _).mpr ⟨kiss, thru, within, thruV, travel, slip, feedGuard⟩
  · refine flow_writeRange fun n within => flow_motionParams fun h => ?_
    obtain ⟨kiss, thru, kissV, _, travel, slip, feedGuard⟩ := (MotionParams.inRanges_iff _).mp h
    exact (MotionParams.inRanges_iff _).mpr ⟨kiss, thru, kissV, within, travel, slip, feedGuard⟩
  · refine flow_writeRange fun n within => flow_motionParams fun h => ?_
    obtain ⟨kiss, thru, kissV, thruV, _, slip, feedGuard⟩ := (MotionParams.inRanges_iff _).mp h
    exact (MotionParams.inRanges_iff _).mpr ⟨kiss, thru, kissV, thruV, within, slip, feedGuard⟩
  · refine flow_writeRange fun n within => flow_motionParams fun h => ?_
    obtain ⟨kiss, thru, kissV, thruV, travel, _, feedGuard⟩ := (MotionParams.inRanges_iff _).mp h
    exact (MotionParams.inRanges_iff _).mpr ⟨kiss, thru, kissV, thruV, travel, within, feedGuard⟩
  · refine flow_writeRange fun n within => flow_motionParams fun h => ?_
    obtain ⟨kiss, thru, kissV, thruV, travel, slip, _⟩ := (MotionParams.inRanges_iff _).mp h
    exact (MotionParams.inRanges_iff _).mpr ⟨kiss, thru, kissV, thruV, travel, slip, within⟩
  · exact flow_writeRange fun n within =>
      Stay.flow (.cycle (.refl s) ⟨rfl, rfl, rfl, rfl, rfl, .inl rfl, fun _ => within⟩)
  · split
    · exact flow_writeRange fun n _ => Stay.flow (.bed (.refl s) ⟨rfl, rfl, rfl, rfl⟩)
    · exact .refl
  · split
    · exact flow_writeRange fun n _ => flow_writeFilter _ _ s
    · exact .refl
  · split
    · exact flow_writeRange fun n _ => Stay.flow (.setLine (.refl s))
    · exact .refl
  · split
    · exact flow_writeRange fun n _ => Stay.flow (.setLine (.refl s))
    · exact .refl
  · exact .refl

theorem flow_actSetParam (code index : Byte) (value : Word) : ActFlows (actSetParam code index value) := by
  intro s
  unfold actSetParam
  split
  · exact .refl
  · exact flow_writeParam ..

theorem flow_actGetParam (code index : Byte) : ActFlows (actGetParam code index) := by
  intro s
  unfold actGetParam
  split <;> exact .refl

/-! ### The link port's own requests -/

theorem Stay.link {s t : State} {x : LinkPort} (h : Stay s t) (outbound : x.outbound = t.link.outbound)
    (inbound : x.inbound = t.link.inbound) (overrun : x.overrun = t.link.overrun) : Stay s (t.withLink x) :=
  h.trans ⟨(Effect.link t x outbound inbound overrun).flow, rfl⟩

theorem flow_readPiece (c : TableCursor) (max : Nat) : ActFlows (State.readPiece c max) := by
  intro s
  unfold State.readPiece
  extract_lets n next data t
  have emptied : Stay s t := by
    unfold t
    split
    · exact .bed (.refl s) ⟨rfl, rfl, rfl, rfl⟩
    · exact .refl s
  exact .tail emptied.flow (.link _ _ rfl rfl rfl)

theorem flow_actReadTable (table qualifier : Byte) (start : Half) (max : Byte) :
    ActFlows (actReadTable table qualifier start max) := by
  intro s
  unfold actReadTable
  split
  · exact .refl
  · split
    · exact .refl
    · exact flow_readPiece _ _ s

theorem flow_actReadNext (max : Byte) : ActFlows (actReadNext max) := by
  intro s
  unfold actReadNext
  split
  · exact .refl
  · split
    · exact .refl
    · exact flow_readPiece _ _ s

theorem flow_actWatch (item slot : Byte) (period : Half) : ActFlows (actWatch item slot period) := by
  intro s
  unfold actWatch
  split
  · exact .refl
  · split
    · exact .refl
    · split
      · exact .refl
      · exact Stay.flow (.link (.refl s) rfl rfl rfl)

theorem flow_actSetLink (code : Byte) : ActFlows (actSetLink code) := by
  intro s
  unfold actSetLink
  split
  · split <;> exact .refl
  · exact .refl

/-! ### The course of a command -/

/-- The queues of the link port within their places, the overrun count within its limit (R156, R158). -/
def LinkPort.withinPlaces (l : LinkPort) : Prop :=
  l.outbound.length ≤ Config.outboundPlaces ∧ l.inbound.length ≤ Config.inboundPlaces ∧ l.overrun ≤ 255

/-- What happens in a command: an effect, a change of the link port that keeps its queues within their places, or a
hardware reset. -/
inductive Event : State → State → Prop
  | effect {s t : State} (h : Effect s t) : Event s t
  | link (s : State) (x : LinkPort) (places : s.link.withinPlaces → x.withinPlaces) : Event s (s.withLink x)
  | reset (s : State) (cause : ResetCause) (wires : Byte) :
      Event s (s.keptThroughReset (State.afterReset cause wires))

/-- The course of events of a command. -/
abbrev Course : State → State → Prop := Relation.ReflTransGen Event

theorem course_of_flow {s t : State} (h : Flow s t) : Course s t := by
  induction h with
  | refl => exact .refl
  | tail _ last ih => exact .tail ih (.effect last)

theorem course_link (s : State) {x : LinkPort} (places : s.link.withinPlaces → x.withinPlaces) :
    Course s (s.withLink x) := .single (.link s x places)

/-- The queues of the link port and the overrun count. -/
def State.linkQueues (s : State) : List OutRecord × List InRecord × Nat :=
  (s.link.outbound, s.link.inbound, s.link.overrun)

theorem blind_linkQueues : Blind State.linkQueues :=
  ⟨fun _ _ => rfl, fun _ _ => rfl, fun _ _ => rfl, fun _ _ => rfl, fun _ _ => rfl, fun _ _ => rfl, fun _ _ _ => rfl⟩

/-- No effect changes the queues of the link port. -/
theorem linkQueues_effect {s t : State} (h : Effect s t) : t.linkQueues = s.linkQueues := by
  have blind := blind_linkQueues
  cases h with
  | link x outbound inbound overrun =>
    show (x.outbound, x.inbound, x.overrun) = _
    rw [outbound, inbound, overrun]
    rfl
  | endTestCut => exact blind.endTestCut s
  | fault k d e => exact blind.faultEntry s k d e
  | followOn k r => exact blind.followOnFault s k r
  | clearFault r =>
    unfold State.clearFault
    extract_lets c t
    split <;> rfl
  | place e => exact blind.place s e
  | startCut tool p r v => exact (blind.lowerTool _ tool).trans (blind.startExecuting s v)
  | slip d => exact (blind.faultEntry ..).trans rfl
  | _ => rfl

theorem linkQueues_flow {s t : State} (h : Flow s t) : t.linkQueues = s.linkQueues := by
  induction h with
  | refl => rfl
  | tail _ last ih => exact (linkQueues_effect last).trans ih

theorem outbound_flow {s t : State} (h : Flow s t) : t.link.outbound = s.link.outbound :=
  congrArg (·.1) (linkQueues_flow h)

/-- A reply finds the place that was kept for it (R157). -/
theorem course_queueReply (s : State) (k tag : Byte) (st : Status) (d : List Byte) (r : Option (Fin 4))
    (room : s.link.outbound.length < Config.outboundPlaces) : Course s (s.queueReply k tag st d r) := by
  refine course_link s ?_
  rintro ⟨_, inbound, overrun⟩
  refine ⟨?_, inbound, overrun⟩
  rw [List.length_append, List.length_singleton]
  exact room

/-- The notices formed take places under the room rule (R158). -/
theorem course_flush (s : State) : Course s s.flush := by
  refine course_link s ?_
  rintro ⟨outbound, inbound, overrun⟩
  have fold : ∀ (ns : List OutRecord) (l : LinkPort), (ns.foldl LinkPort.queueNotice l).inbound = l.inbound ∧
      (ns.foldl LinkPort.queueNotice l).overrun = l.overrun := by
    intro ns
    induction ns with
    | nil => exact fun l => ⟨rfl, rfl⟩
    | cons n ns ih =>
      intro l
      have one : (l.queueNotice n).inbound = l.inbound ∧ (l.queueNotice n).overrun = l.overrun := by
        unfold LinkPort.queueNotice
        split <;> exact ⟨rfl, rfl⟩
      exact ⟨(ih _).1.trans one.1, (ih _).2.trans one.2⟩
  obtain ⟨keepsInbound, keepsOverrun⟩ := fold s.link.formed { s.link with formed := [] }
  have bound := (flush_outbound s).2
  refine ⟨?_, keepsInbound ▸ inbound, keepsOverrun ▸ overrun⟩
  show s.flush.link.outbound.length ≤ _
  unfold Config.outboundPlaces at *
  omega

theorem course_close (s : State) : Course s s.close :=
  (course_of_flow (flow_takeEntries _ s)).trans (course_flush _)

theorem course_begin (s : State) : Course s s.begin := course_link s id

/-- A delivery that finds a free outbound place runs its course. -/
def Delivers (run : State → State) : Prop :=
  ∀ s : State, s.link.outbound.length < Config.outboundPlaces → Course s (run s)

theorem delivers_serve {k tag : Byte} {act : State → Acted} (h : ActFlows act) : Delivers (serve k tag act) := by
  intro s room
  refine (course_of_flow (h s)).trans (course_queueReply _ _ _ _ _ _ ?_)
  rw [outbound_flow (h s)]
  exact room

theorem delivers_points (tag : Byte) (first : Half) (vs : List RawVertex) : Delivers (runPoints tag first vs) := by
  intro s room
  unfold runPoints
  split
  · exact course_of_flow (Stay.flow (.store (.refl s) (sound_stream _ _ _)))
  · exact course_queueReply _ _ _ _ _ _ room

theorem delivers_nest (tag flags : Byte) : Delivers (runNest tag flags) := fun s room =>
  (delivers_serve (flow_actNest flags) s room).trans (course_of_flow (flow_settleNest _))

theorem actFlows_still {act : State → Acted} (h : ∀ s, (act s).st = s) : ActFlows act := by
  intro s
  rw [h s]

/-- Every request's delivery runs its course. -/
theorem delivers_deliver (i : Instr) : Delivers (deliver i) := by
  cases i with
  | ident tag => exact delivers_serve (actFlows_still fun _ => rfl)
  | linkTest tag payload => exact delivers_serve (actFlows_still fun _ => rfl)
  | setLink tag code => exact delivers_serve fun _ => flow_actSetLink ..
  | setParam tag param index value => exact delivers_serve fun _ => flow_actSetParam ..
  | getParam tag param index => exact delivers_serve fun _ => flow_actGetParam ..
  | readTable tag table qualifier start max => exact delivers_serve fun _ => flow_actReadTable ..
  | readNext tag max => exact delivers_serve fun _ => flow_actReadNext ..
  | watch tag item slot period => exact delivers_serve fun _ => flow_actWatch ..
  | setBreak tag index kind argument action => exact delivers_serve fun _ => flow_actSetBreak ..
  | clearFault tag => exact delivers_serve flow_actClearFault
  | status tag => exact delivers_serve (actFlows_still fun _ => rfl)
  | openOutline tag slot n bleed tool flags order passes label => exact delivers_serve fun _ => flow_actOpenOutline ..
  | points tag first vertices => exact delivers_points _ _ _
  | closeOutline tag => exact delivers_serve flow_actCloseOutline
  | abandonOutline tag => exact delivers_serve flow_actAbandonOutline
  | setPanel tag slot bleed tool flags order passes label => exact delivers_serve fun _ => flow_actSetPanel ..
  | deletePanel tag slot => exact delivers_serve fun _ => flow_actDeletePanel ..
  | nest tag flags => exact delivers_nest _ _
  | nestAbort tag => exact delivers_serve flow_actNestAbort
  | place tag slot rotation x y => exact delivers_serve fun _ => flow_actPlace ..
  | unplace tag slot => exact delivers_serve fun _ => flow_actUnplace ..
  | pin tag slot => exact delivers_serve fun _ => flow_actPin ..
  | unpin tag slot => exact delivers_serve fun _ => flow_actUnpin ..
  | commit tag mode slots => exact delivers_serve fun _ => flow_actCommit ..
  | uncommit tag slot => exact delivers_serve fun _ => flow_actUncommit ..
  | home tag => exact delivers_serve flow_actHome
  | startCut tag => exact delivers_serve flow_actStartCut
  | suspend tag => exact delivers_serve flow_actSuspend
  | resume tag => exact delivers_serve flow_actResume
  | stopCut tag => exact delivers_serve flow_actStopCut
  | skipPanel tag slot => exact delivers_serve fun _ => flow_actSkipPanel ..
  | testCut tag tool size x y => exact delivers_serve fun _ => flow_actTestCut ..
  | jog tag x y => exact delivers_serve fun _ => flow_actJog ..
  | feed tag n => exact delivers_serve fun _ => flow_actFeed ..
  | markSet tag row side x y => exact delivers_serve fun _ => flow_actMarkSet ..
  | markTake tag row side => exact delivers_serve fun _ => flow_actMarkTake ..
  | acceptSeam tag => exact delivers_serve flow_actAcceptSeam
  | remeasure tag => exact delivers_serve flow_actRemeasure
  | jobClear tag => exact delivers_serve flow_actJobClear
  | _ => exact fun _ _ => .refl

/-- How a command ends: closed behind its course, or as the record of a request that waits. -/
inductive Ended (s : State) : State → Prop
  | closed (u : State) (course : Course s u) : Ended s u.close
  | waited (x : LinkPort) (places : s.link.withinPlaces → x.withinPlaces) (quiet : x.formed = []) :
      Ended s (s.withLink x)

/-- A command answers a next state, reached as `Ended` says. -/
def Ends (s : State) (o : Host.Outcome State Fault Refusal) : Prop := ∃ t, o = .next t ∧ Ended s t

theorem ends_closed {s u : State} (h : Course s u) : Ends s (.next u.close) := ⟨_, rfl, .closed u h⟩

/-- An event of the part: it begins, flows and closes. -/
theorem ends_event {s u : State} (h : Flow s.begin u) : Ends s (.next u.close) :=
  ends_closed ((course_begin s).trans (course_of_flow h))

theorem withinPlaces_enter {l : LinkPort} (body : List Byte) (damage : Option Damage) (h : l.withinPlaces) :
    (l.enter body damage).withinPlaces := by
  obtain ⟨outbound, inbound, overrun⟩ := h
  unfold LinkPort.enter
  split
  · rename_i free
    refine ⟨outbound, ?_, Nat.zero_le _⟩
    rw [List.length_append, List.length_singleton]
    exact free
  · exact ⟨outbound, inbound, Nat.min_le_right ..⟩

theorem formed_enter (body : List Byte) (damage : Option Damage) (l : LinkPort) :
    (l.enter body damage).formed = l.formed := by
  unfold LinkPort.enter
  split <;> rfl

/-- A request row runs its delivery's course, or its record waits (R157). -/
theorem ends_request (i : Instr) {run : State → State} (h : Delivers run) (s : State) : Ends s (request i run s) := by
  unfold request
  split
  · rename_i room
    refine ends_closed ((course_begin s).trans ?_)
    unfold State.deliverChecked
    split
    · exact h _ room
    · split
      · exact course_queueReply _ _ _ _ _ _ room
      · exact .refl
  · refine ⟨_, rfl, ?_⟩
    unfold State.waits
    split
    · exact .waited _ (fun h => withinPlaces_enter _ _ (l := s.begin.link) h) (formed_enter ..)
    · exact .waited _ id rfl

end Sys2Proof.Machine

namespace Sys2Proof.Machine

/-! ### The take of a record -/

theorem course_reportOverrun (s : State) (r : InRecord)
    (room : s.link.outbound.length + r.placesNeeded ≤ Config.outboundPlaces) :
    Course s (s.reportOverrun r.mark) ∧ (s.reportOverrun r.mark).link.outbound.length < Config.outboundPlaces := by
  unfold InRecord.placesNeeded at room
  cases h : r.mark with
  | none =>
    rw [h] at room
    exact ⟨.refl, room⟩
  | some n =>
    rw [h] at room
    have length : (s.reportOverrun (some n)).link.outbound.length = s.link.outbound.length + 1 := List.length_append
    have two : s.link.outbound.length + 2 ≤ Config.outboundPlaces := room
    refine ⟨course_link s ?_, by omega⟩
    rintro ⟨_, inbound, overrun⟩
    exact ⟨length.trans_le (by omega), inbound, overrun⟩

theorem delivers_answerRecord (r : InRecord) : Delivers (State.answerRecord r) := by
  intro s room
  unfold State.answerRecord
  split
  · exact delivers_deliver _ s room
  · exact course_queueReply _ _ _ _ _ _ room
  · exact course_queueReply _ _ _ _ _ _ room

theorem course_takeRecord (s : State) (r : InRecord)
    (room : s.link.outbound.length + r.placesNeeded ≤ Config.outboundPlaces) : Course s (s.takeRecord r) := by
  obtain ⟨reported, free⟩ := course_reportOverrun s r room
  unfold State.takeRecord
  extract_lets t
  refine reported.trans ?_
  split
  · exact course_of_flow (Effect.emit t _).flow
  · exact delivers_answerRecord r t free

theorem course_takes (s : State) : Course s s.takes := by
  unfold State.takes
  split
  · exact .refl
  · rename_i r rest head
    split
    · rename_i room
      have popped : Course s (s.withLink { s.link with inbound := rest }) := by
        refine course_link s ?_
        rintro ⟨outbound, inbound, overrun⟩
        rw [head] at inbound
        exact ⟨outbound, Nat.le_of_succ_le inbound, overrun⟩
      exact popped.trans (course_takeRecord _ r room)
    · exact .refl

/-! ### The line side of the link port -/

theorem withinPlaces_endFrame {l : LinkPort} (d : Option Damage) (bytes : List Byte) (h : l.withinPlaces) :
    (l.endFrame d bytes).withinPlaces := withinPlaces_enter _ _ (l := { l with receiver := .hunting }) h

theorem withinPlaces_receive {l : LinkPort} (b : Byte) (err : Bool) (h : l.withinPlaces) :
    (l.receive b err).withinPlaces := by
  unfold LinkPort.receive
  split
  · split <;> exact h
  · extract_lets bytes err
    clear_value bytes err
    split
    · exact h
    · split
      · exact withinPlaces_endFrame _ _ h
      · split
        · exact withinPlaces_endFrame _ _ h
        · exact h

theorem withinPlaces_breakFrame {l : LinkPort} (d : Damage) (h : l.withinPlaces) : (l.breakFrame d).withinPlaces := by
  unfold LinkPort.breakFrame
  split
  · exact h
  · exact withinPlaces_endFrame _ _ h

theorem withinPlaces_sent {l : LinkPort} (h : l.withinPlaces) : l.sent.withinPlaces := by
  unfold LinkPort.sent
  split
  · exact h
  · rename_i r rest head
    obtain ⟨outbound, inbound, overrun⟩ := h
    rw [head] at outbound
    exact ⟨Nat.le_of_succ_le outbound, inbound, overrun⟩

theorem withinPlaces_queueWatch {l : LinkPort} (n : OutRecord) (h : l.withinPlaces) :
    (l.queueWatch n).withinPlaces := by
  obtain ⟨outbound, inbound, overrun⟩ := h
  unfold LinkPort.queueWatch
  split
  · refine ⟨?_, inbound, overrun⟩
    rw [List.length_append, List.length_singleton]
    omega
  · exact ⟨outbound, inbound, overrun⟩

theorem course_watchExpires (s : State) : Course s s.watchExpires := by
  unfold State.watchExpires
  split
  · exact course_link s (withinPlaces_queueWatch _)
  · exact .refl

theorem withinPlaces_clear (l : LinkPort) : l.clear.withinPlaces :=
  ⟨show 1 ≤ 24 by decide, Nat.zero_le _, Nat.zero_le _⟩

theorem course_linkClears (s : State) : Course s s.linkClears := by
  unfold State.linkClears
  extract_lets t u
  have cleared : Course s t :=
    (course_link s fun _ => withinPlaces_clear _).trans
      (course_of_flow (Stay.flow (.store (.refl _) sound_linkCleared)))
  have dropped : Course t u := by
    unfold u
    split
    · exact course_of_flow (flow_dropNest t)
    · exact .refl
  refine cleared.trans (dropped.trans ?_)
  split
  · exact course_of_flow (flow_raiseFault ..)
  · exact .refl

theorem course_hardwareReset (cause : ResetCause) (wires : Byte) (s : State) :
    Course s (s.hardwareReset cause wires) := by
  have start : Course s (s.keptThroughReset (State.afterReset cause wires)) := .single (.reset s cause wires)
  unfold State.hardwareReset
  extract_lets t
  split
  · exact start.trans (course_of_flow (flow_raiseFault ..))
  · exact start

/-- A change of the link port on the line side. -/
theorem ends_line {s : State} {f : LinkPort → LinkPort} (h : ∀ l : LinkPort, l.withinPlaces → (f l).withinPlaces) :
    Ends s (.next (s.begin.withLink (f s.begin.link)).close) :=
  ends_closed ((course_begin s).trans (course_link _ (h _)))

/-- Every command answers a next state, by a course of events and its close or as a request that waits. -/
theorem ends_exec (c : Instr) (s : State) : Ends s (exec c s) := by
  cases c with
  | hardwareReset cause wires => exact ends_closed (course_hardwareReset cause wires s)
  | linkClear =>
    show Ends s (.next (if s.link.armed then s.begin.linkClears.close else s.begin.close))
    split
    · exact ends_closed ((course_begin s).trans (course_linkClears _))
    · exact ends_closed (course_begin s)
  | linkByteReceived b err => exact ends_line fun _ => withinPlaces_receive b err
  | frameGapExpiry => exact ends_line fun _ => withinPlaces_breakFrame .truncated
  | shortBreak => exact ends_line fun _ => withinPlaces_breakFrame .framing
  | recordTake => exact ends_closed ((course_begin s).trans (course_takes _))
  | outboundRecordSent => exact ends_line fun _ => withinPlaces_sent
  | watchExpiry => exact ends_closed ((course_begin s).trans (course_watchExpires _))
  | nestStep => exact ends_event ((flow_nestStep _).trans (flow_settleNest _))
  | settleExpiry =>
    show Ends s (.next (if s.cycle.settleTimer.isSome then s.begin.settleExpires.close else s.begin.close))
    split
    · exact ends_event (flow_settleExpires _)
    · exact ends_event .refl
  | moveCompletion => exact ends_event (flow_moveCompletes _)
  | markSensorReport x y => exact ends_event (flow_sensorReports x y _)
  | searchScanEnd => exact ends_event (flow_scanEnds _)
  | homeFullTravel axis => exact ends_event (flow_fullTravel axis _)
  | encoderStep forward => exact ends_event (flow_encoderSteps forward _)
  | feedGuardExpiry => exact ends_event (flow_guardExpires _)
  | feedDriveDone => exact ends_event (flow_driveDone _)
  | lineWireChange line level => exact ends_event (flow_wireChange line level _)
  | filterExpiry line => exact ends_event (flow_filterExpires line _)
  | axisPositionReport x y => exact ends_event (flow_axesReport x y _)
  | linkLineReturnHigh => exact ends_line (f := fun l => { l with armed := true }) fun _ h => h
  | ident tag => exact ends_request (.ident tag) (delivers_deliver (.ident tag)) s
  | linkTest tag payload => exact ends_request (.linkTest tag payload) (delivers_deliver (.linkTest tag payload)) s
  | setLink tag code => exact ends_request _ (delivers_deliver (.setLink tag code)) s
  | setParam tag param index value => exact ends_request _ (delivers_deliver (.setParam tag param index value)) s
  | getParam tag param index => exact ends_request _ (delivers_deliver (.getParam tag param index)) s
  | readTable tag table qualifier start max =>
    exact ends_request _ (delivers_deliver (.readTable tag table qualifier start max)) s
  | readNext tag max => exact ends_request _ (delivers_deliver (.readNext tag max)) s
  | watch tag item slot period => exact ends_request _ (delivers_deliver (.watch tag item slot period)) s
  | setBreak tag index kind argument action =>
    exact ends_request _ (delivers_deliver (.setBreak tag index kind argument action)) s
  | clearFault tag => exact ends_request _ (delivers_deliver (.clearFault tag)) s
  | status tag => exact ends_request _ (delivers_deliver (.status tag)) s
  | openOutline tag slot n bleed tool flags order passes label =>
    exact ends_request _ (delivers_deliver (.openOutline tag slot n bleed tool flags order passes label)) s
  | points tag first vertices => exact ends_request _ (delivers_deliver (.points tag first vertices)) s
  | closeOutline tag => exact ends_request _ (delivers_deliver (.closeOutline tag)) s
  | abandonOutline tag => exact ends_request _ (delivers_deliver (.abandonOutline tag)) s
  | setPanel tag slot bleed tool flags order passes label =>
    exact ends_request _ (delivers_deliver (.setPanel tag slot bleed tool flags order passes label)) s
  | deletePanel tag slot => exact ends_request _ (delivers_deliver (.deletePanel tag slot)) s
  | nest tag flags => exact ends_request _ (delivers_deliver (.nest tag flags)) s
  | nestAbort tag => exact ends_request _ (delivers_deliver (.nestAbort tag)) s
  | place tag slot rotation x y => exact ends_request _ (delivers_deliver (.place tag slot rotation x y)) s
  | unplace tag slot => exact ends_request _ (delivers_deliver (.unplace tag slot)) s
  | pin tag slot => exact ends_request _ (delivers_deliver (.pin tag slot)) s
  | unpin tag slot => exact ends_request _ (delivers_deliver (.unpin tag slot)) s
  | commit tag mode slots => exact ends_request _ (delivers_deliver (.commit tag mode slots)) s
  | uncommit tag slot => exact ends_request _ (delivers_deliver (.uncommit tag slot)) s
  | home tag => exact ends_request _ (delivers_deliver (.home tag)) s
  | startCut tag => exact ends_request _ (delivers_deliver (.startCut tag)) s
  | suspend tag => exact ends_request _ (delivers_deliver (.suspend tag)) s
  | resume tag => exact ends_request _ (delivers_deliver (.resume tag)) s
  | stopCut tag => exact ends_request _ (delivers_deliver (.stopCut tag)) s
  | skipPanel tag slot => exact ends_request _ (delivers_deliver (.skipPanel tag slot)) s
  | testCut tag tool size x y => exact ends_request _ (delivers_deliver (.testCut tag tool size x y)) s
  | jog tag x y => exact ends_request _ (delivers_deliver (.jog tag x y)) s
  | feed tag n => exact ends_request _ (delivers_deliver (.feed tag n)) s
  | markSet tag row side x y => exact ends_request _ (delivers_deliver (.markSet tag row side x y)) s
  | markTake tag row side => exact ends_request _ (delivers_deliver (.markTake tag row side)) s
  | acceptSeam tag => exact ends_request _ (delivers_deliver (.acceptSeam tag)) s
  | remeasure tag => exact ends_request _ (delivers_deliver (.remeasure tag)) s
  | jobClear tag => exact ends_request _ (delivers_deliver (.jobClear tag)) s

/-! ### What every command keeps -/

theorem kept_course {K : State → Prop} (event : ∀ s t, Event s t → K s → K t) {s t : State} (course : Course s t)
    (start : K s) : K t := by
  induction course with
  | refl => exact start
  | tail _ last ih => exact event _ _ last ih

/-- A property kept by every event of a command is kept by every command (the waiting record is such an event). -/
theorem kept_exec {K : State → Prop} (event : ∀ s t, Event s t → K s → K t) {c : Instr} {s t : State}
    (h : exec c s = .next t) (start : K s) : K t := by
  obtain ⟨u, next, ended⟩ := ends_exec c s
  obtain rfl : u = t := by rw [h] at next; cases next; rfl
  cases ended with
  | closed v run => exact kept_course event (run.trans (course_close v)) start
  | waited x places quiet => exact kept_course event (course_link s places) start

theorem step_inv {s t : State} (h : step s = .next t) :
    t = s ∨ ∃ c rest, exec c { s with pending := rest } = .next t := by
  unfold step at h
  split at h
  · cases h
    exact .inl rfl
  · exact .inr ⟨_, _, h⟩

/-- A property that every event keeps, and that does not name the commands that wait, is kept by every step. -/
theorem kept_step {K : State → Prop} (event : ∀ s t, Event s t → K s → K t)
    (blind : ∀ s rest, K s → K { s with pending := rest }) {s t : State} (h : step s = .next t)
    (start : K s) : K t := by
  rcases step_inv h with rfl | ⟨c, rest, ran⟩
  · exact start
  · exact kept_exec event ran (blind s rest start)

/-! ### The commands that wait -/

theorem pending_effect {s t : State} (h : Effect s t) : t.pending = s.pending := by
  have blind := blind_pending
  cases h with
  | endTestCut => exact blind.endTestCut s
  | fault k d e => exact blind.faultEntry s k d e
  | followOn k r => exact blind.followOnFault s k r
  | clearFault r =>
    unfold State.clearFault
    extract_lets c t
    split <;> rfl
  | place e => exact blind.place s e
  | startCut tool p r v => exact (blind.lowerTool _ tool).trans (blind.startExecuting s v)
  | slip d => exact (blind.faultEntry ..).trans rfl
  | _ => rfl

theorem pending_event {s t : State} (h : Event s t) : t.pending = s.pending := by
  cases h with
  | effect h => exact pending_effect h
  | link x => rfl
  | reset cause wires => rfl

/-- Settles O2: every command ends in a next state, and no event of its course names the commands that wait. -/
theorem everyCommandGoesOn : Obligations.EveryCommandGoesOn := by
  intro c s
  obtain ⟨t, next, _⟩ := ends_exec c s
  exact ⟨t, next, kept_exec (K := fun u => u.pending = s.pending) (fun _ _ h => (pending_event h).trans) next rfl⟩

end Sys2Proof.Machine

namespace Sys2Proof.Machine

/-! ### The start of a FEED, unit by unit -/

theorem store_startFeed (s : State) (d : Nat) : (s.startFeed d).store = s.store := by
  simp [State.startFeed, State.startExecuting]

theorem nest_startFeed (s : State) (d : Nat) : (s.startFeed d).nest = s.nest := by
  simp [State.startFeed, State.startExecuting]

theorem marks_startFeed (s : State) (d : Nat) : (s.startFeed d).marks = s.marks := by
  simp [State.startFeed, State.startExecuting]

theorem plan_startFeed (s : State) (d : Nat) : (s.startFeed d).plan = s.plan := by
  simp [State.startFeed, State.startExecuting]

theorem cycle_startFeed (s : State) (d : Nat) : (s.startFeed d).cycle = s.cycle := by
  simp [State.startFeed, State.startExecuting]

theorem params_startFeed (s : State) (d : Nat) : (s.startFeed d).motion.params = s.motion.params := by
  unfold State.startFeed
  extract_lets t m
  exact (rfl : t.motion.params = s.motion.params)

theorem queue_startFeed (s : State) (d : Nat) : (s.startFeed d).motion.queue = s.motion.queue := by
  unfold State.startFeed
  extract_lets t m
  exact (rfl : t.motion.queue = s.motion.queue)

theorem beacon_startFeed (s : State) (d : Nat) : (s.startFeed d).bed.beacon = s.bed.beacon := by
  unfold State.startFeed
  extract_lets t m
  exact (rfl : t.bed.beacon = s.bed.beacon)

/-! ### Capacities -/

theorem queue_effect {s t : State} (h : Effect s t) (bound : s.motion.queue.length ≤ Config.motionPlaces) :
    t.motion.queue.length ≤ Config.motionPlaces := by
  cases h with
  | motion x standing =>
    show x.queue.length ≤ _
    rw [standing.queue]
    exact bound
  | endTestCut =>
    unfold State.endTestCut
    extract_lets u
    split <;> exact bound
  | fault k d e => exact (queue_faultEntry s k d e) ▸ Nat.zero_le _
  | slip d => exact (queue_faultEntry ..) ▸ Nat.zero_le _
  | followOn k r =>
    unfold State.followOnFault
    extract_lets _ u b
    split <;> exact bound
  | clearFault r =>
    unfold State.clearFault
    extract_lets c u
    split <;> exact bound
  | place e =>
    unfold State.place
    split
    · rename_i free
      show (s.motion.queue ++ [e]).length ≤ _
      rw [List.length_append, List.length_singleton]
      exact free
    · exact bound
  | remove which =>
    unfold MotionUnit.remove
    split
    · split
      · exact bound
      · rename_i e rest front
        rw [front] at bound
        exact (Nat.succ_le_succ (List.length_filter_le ..)).trans bound
    · exact (List.length_filter_le ..).trans bound
  | startCut tool => cases tool <;> exact bound
  | endEntry | reach | home | endFeed => exact (List.length_tail ▸ Nat.sub_le ..).trans bound
  | _ => exact bound

/-- Between events: every queue within its places. -/
def State.queuesFit (s : State) : Prop := s.link.withinPlaces ∧ s.motion.queue.length ≤ Config.motionPlaces

theorem withinCapacity_iff (s : State) : s.withinCapacity = true ↔ s.queuesFit := by
  simp only [State.withinCapacity, State.queuesFit, LinkPort.withinPlaces, Bool.and_eq_true, decide_eq_true_eq]
  tauto

theorem queuesFit_event {s t : State} (h : Event s t) (fit : s.queuesFit) : t.queuesFit := by
  obtain ⟨places, bound⟩ := fit
  cases h with
  | effect h =>
    have same := linkQueues_effect h
    simp only [State.linkQueues, Prod.mk.injEq] at same
    obtain ⟨outbound, inbound, overrun⟩ := same
    refine ⟨?_, queue_effect h bound⟩
    unfold LinkPort.withinPlaces
    rw [outbound, inbound, overrun]
    exact places
  | link x keeps => exact ⟨keeps places, bound⟩
  | reset cause wires => exact ⟨⟨show 1 ≤ 24 by decide, Nat.zero_le _, Nat.zero_le _⟩, Nat.zero_le _⟩

theorem quiet_exec {c : Instr} {s t : State} (h : exec c s = .next t) : t.link.formed = [] := by
  obtain ⟨u, next, ended⟩ := ends_exec c s
  obtain rfl : u = t := by rw [h] at next; cases next; rfl
  cases ended with
  | closed v _ => exact formed_close v
  | waited x _ quiet => exact quiet

/-- Settles O55: every event keeps the queues within their places, and every command ends with its notices queued. -/
theorem capacitiesKept : Obligations.CapacitiesKept := by
  intro s t fit quiet stepped
  refine ⟨?_, ?_⟩
  · exact (withinCapacity_iff t).mpr
      (kept_step (fun _ _ => queuesFit_event) (fun _ _ h => h) stepped ((withinCapacity_iff s).mp fit))
  · rcases step_inv stepped with rfl | ⟨c, rest, ran⟩
    · exact quiet
    · exact List.isEmpty_iff.mpr (quiet_exec ran)

/-! ### Contour blocks -/

theorem sound_effect {s t : State} (h : Effect s t) (start : s.store.sound) : t.store.sound := by
  cases h with
  | store x sound => exact sound start
  | endTestCut =>
    unfold State.endTestCut
    extract_lets u
    split <;> exact start
  | fault k d e => exact (store_faultEntry s k d e) ▸ start
  | slip d => exact (store_faultEntry s.stopDrive ..) ▸ start
  | followOn k r =>
    unfold State.followOnFault
    extract_lets _ u b
    split <;> exact start
  | clearFault r =>
    unfold State.clearFault
    extract_lets c u
    split <;> exact start
  | place e =>
    rw [State.store_place]
    exact start
  | startCut tool => cases tool <;> exact start
  | startFeed d =>
    rw [store_startFeed]
    exact start
  | _ => exact start

theorem sound_fresh : PanelStore.reset.sound := by
  refine ⟨rfl, ?_, fun i _ => ?_⟩
  · unfold PanelStore.blocksSafe PanelStore.allBlocks PanelStore.reset
    generalize List.range Config.blocks = free
    rw [freshBlocks Panel.emptyRecord rfl]
  · show ((Table.fill 96 Panel.emptyRecord).get i).chain = []
    rw [Table.get_fill]
    rfl

theorem sound_withContour {st : PanelStore} {contour : List (Nat × Vertex)} (wf : Contour.wf contour = true)
    (h : st.sound) : ({ st with contour := contour } : PanelStore).sound := by
  obtain ⟨_, blocks, bare⟩ := h
  exact ⟨wf, blocks, bare⟩

theorem sound_event {s t : State} (h : Event s t) (start : s.store.sound) : t.store.sound := by
  cases h with
  | effect h => exact sound_effect h start
  | link x => exact start
  | reset cause wires => exact sound_withContour start.1 sound_fresh

/-- Settles O58: every event keeps the panel store sound. -/
theorem blocksKept : Obligations.BlocksKept := by
  intro s t wf blocks bare stepped
  exact kept_step (K := fun u => u.store.sound) (fun _ _ => sound_event) (fun _ _ h => h) stepped ⟨wf, blocks, bare⟩

/-! ### Parameters and bands -/

/-- Every parameter in its range and one band fewer than rows, unit by unit. -/
structure State.Tuned (s : State) : Prop where
  nest : s.nest.params.inRanges = true
  motion : s.motion.params.inRanges = true
  plan : s.plan.sound
  marks : s.marks.sound
  settle : inRange 0 5000 s.cycle.vacSettle = true

theorem tuned_iff (s : State) : s.Tuned ↔ s.paramsSafe = true ∧ s.marks.bandsSafe = true := by
  have split : s.Tuned ↔ s.nest.params.inRanges = true ∧ s.motion.params.inRanges = true ∧ s.plan.sound ∧
      s.marks.sound ∧ inRange 0 5000 s.cycle.vacSettle = true :=
    ⟨fun h => ⟨h.nest, h.motion, h.plan, h.marks, h.settle⟩, fun ⟨a, b, c, d, e⟩ => ⟨a, b, c, d, e⟩⟩
  rw [split]
  simp only [State.paramsSafe, Planner.sound, MarkUnit.sound, Bool.and_eq_true]
  tauto

theorem tuned_faultEntry {s : State} (k : FaultKind) (d : FaultDetail) (e : Option Entry) (h : s.Tuned) :
    (s.faultEntry k d e).Tuned where
  nest := (nest_faultEntry s k d e) ▸ h.nest
  motion := by
    rw [motion_faultEntry]
    exact h.motion
  plan := by
    rw [plan_faultEntry]
    exact h.plan
  marks := by
    rw [marks_faultEntry]
    split
    · exact (alike_invalidate ..).sound h.marks
    · exact h.marks
  settle := by
    obtain ⟨r, w, same⟩ := owedAtFault_only s e
    rw [cycle_faultEntry, same]
    exact h.settle

theorem tuned_effect {s t : State} (h : Effect s t) (start : s.Tuned) : t.Tuned := by
  obtain ⟨nest, motion, plan, marks, settle⟩ := start
  cases h with
  | nest x ranges => exact ⟨ranges nest, motion, plan, marks, settle⟩
  | marks x sound => exact ⟨nest, motion, plan, sound marks, settle⟩
  | plan x sound => exact ⟨nest, motion, sound plan, marks, settle⟩
  | cycle x standing => exact ⟨nest, motion, plan, marks, standing.vacSettle settle⟩
  | motion x standing => exact ⟨nest, standing.params motion, plan, marks, settle⟩
  | endTestCut =>
    unfold State.endTestCut
    extract_lets u
    split <;> exact ⟨nest, motion, plan, marks, settle⟩
  | fault k d e => exact tuned_faultEntry k d e ⟨nest, motion, plan, marks, settle⟩
  | slip d => exact tuned_faultEntry (s := s.stopDrive) _ d none ⟨nest, motion, plan, marks, settle⟩
  | followOn k r =>
    unfold State.followOnFault
    extract_lets _ u b
    split <;> exact ⟨nest, motion, plan, marks, settle⟩
  | clearFault r =>
    unfold State.clearFault
    extract_lets c u
    split <;> exact ⟨nest, motion, plan, marks, settle⟩
  | place e =>
    unfold State.place
    split <;> exact ⟨nest, motion, plan, marks, settle⟩
  | remove which =>
    refine ⟨nest, ?_, plan, marks, settle⟩
    unfold MotionUnit.remove
    split
    · split <;> exact motion
    · exact motion
  | startCut tool => cases tool <;> exact ⟨nest, motion, plan, marks, settle⟩
  | startFeed d =>
    refine ⟨?_, ?_, ?_, ?_, ?_⟩
    · exact (nest_startFeed s d).symm ▸ nest
    · exact (params_startFeed s d).symm ▸ motion
    · exact (plan_startFeed s d).symm ▸ plan
    · exact (marks_startFeed s d).symm ▸ marks
    · exact (cycle_startFeed s d).symm ▸ settle
  | _ => exact ⟨nest, motion, plan, marks, settle⟩

theorem tuned_event {s t : State} (h : Event s t) (start : s.Tuned) : t.Tuned := by
  cases h with
  | effect h => exact tuned_effect h start
  | link x => exact ⟨start.nest, start.motion, start.plan, start.marks, start.settle⟩
  | reset cause wires =>
    have fresh : LayoutParams.reset.inRanges = true ∧ MotionUnit.reset.params.inRanges = true ∧ Planner.reset.sound ∧
        MarkUnit.reset.sound ∧ inRange 0 5000 CycleControl.reset.vacSettle = true := by
      refine ⟨rfl, rfl, ⟨rfl, rfl, rfl⟩, ⟨rfl, rfl, rfl, rfl⟩, rfl⟩
    obtain ⟨nest, motion, plan, marks, settle⟩ := fresh
    exact ⟨nest, motion, plan, marks, settle⟩

/-- Settles O59: every event keeps the parameters in their ranges and the bands in number. -/
theorem parametersAndBandsKept : Obligations.ParametersAndBandsKept := by
  intro s t params bands stepped
  exact (tuned_iff t).mp (kept_step (K := State.Tuned) (fun _ _ => tuned_event)
    (fun _ _ h => ⟨h.nest, h.motion, h.plan, h.marks, h.settle⟩) stepped ((tuned_iff s).mpr ⟨params, bands⟩))

end Sys2Proof.Machine

namespace Sys2Proof.Machine

/-! ### What binds the cycle inside a command -/

/-- A state before TESTCUT, with the record that state holds (R113). -/
structure Before.Sound (b : Before) : Prop where
  state : b.state = .idle ∨ b.state = .suspended ∨ b.state = .held
  hold : b.hold.isSome = true ↔ b.state = .held
  taken : b.taken.isSome = true ↔ b.state = .suspended

/-- The records of the cycle controller, each in its own state (R92, R93, R146). -/
structure CycleControl.Bound (c : CycleControl) : Prop where
  fault : c.fault.isSome = true ↔ c.state = .halted
  hold : c.hold.isSome = true ↔ c.state = .held
  taken : c.taken.isSome = true ↔ c.state = .suspended
  before : c.before.isSome = true ↔ c.state = .testcut
  kept : ∀ b, c.before = some b → b.Sound
  settle : c.settleTimer.isSome = true → c.state = .measuring

/-- The motion unit executes the head of its queue; behind a fault nothing moves and both tools are raised (R130). -/
structure MotionUnit.Bound (m : MotionUnit) (fault : Bool) : Prop where
  queued : m.executing = true → m.queue ≠ []
  still : fault = true → m.queue = [] ∧ m.executing = false ∧ m.kiss = .raised ∧ m.thru = .raised

/-- What binds the cycle inside a command: all of `cycleSafe` but that an entry left in the queue executes, which the
close of the command brings about (R120). -/
structure State.Bound (s : State) : Prop where
  cycle : s.cycle.Bound
  motion : s.motion.Bound s.cycle.fault.isSome
  beacon : s.bed.beacon = true ↔ s.cycle.state = .held ∨ s.cycle.state = .halted

theorem beq_bool_iff (a b : Bool) : (a == b) = true ↔ (a = true ↔ b = true) := by
  rw [beq_iff_eq, Bool.eq_iff_iff]

theorem haltSafe_iff (s : State) : s.haltSafe = true ↔ (s.cycle.fault.isSome = true ↔ s.cycle.state = .halted) ∧
    (s.cycle.fault.isSome = true → s.motion.queue = [] ∧ s.motion.executing = false ∧ s.motion.kiss = .raised ∧
      s.motion.thru = .raised) := by
  cases h : s.cycle.fault <;>
    simp [State.haltSafe, h, and_assoc]

theorem recordsSafe_iff (s : State) : s.recordsSafe = true ↔ (s.cycle.hold.isSome = true ↔ s.cycle.state = .held) ∧
    (s.cycle.taken.isSome = true ↔ s.cycle.state = .suspended) ∧
    (s.cycle.before.isSome = true ↔ s.cycle.state = .testcut) ∧ ∀ b, s.cycle.before = some b → b.Sound := by
  have sound : ∀ b : Before, b.Sound ↔ (b.state = .idle ∨ b.state = .suspended ∨ b.state = .held) ∧
      (b.hold.isSome = true ↔ b.state = .held) ∧ (b.taken.isSome = true ↔ b.state = .suspended) :=
    fun b => ⟨fun h => ⟨h.state, h.hold, h.taken⟩, fun ⟨x, y, z⟩ => ⟨x, y, z⟩⟩
  cases h : s.cycle.before <;>
    simp only [State.recordsSafe, beq_bool_iff, Bool.and_eq_true, Bool.or_eq_true, sound, h, and_assoc, or_assoc]
  all_goals simp

theorem beaconSafe_iff (s : State) :
    s.beaconSafe = true ↔ (s.bed.beacon = true ↔ s.cycle.state = .held ∨ s.cycle.state = .halted) := by
  rw [State.beaconSafe, beq_bool_iff, Bool.or_eq_true, beq_iff_eq, beq_iff_eq]

theorem settleSafe_iff (s : State) :
    s.settleSafe = true ↔ (s.cycle.settleTimer.isSome = true → s.cycle.state = .measuring) := by
  cases h : s.cycle.settleTimer <;> simp [State.settleSafe, h]

theorem motionSettled_iff (s : State) : s.motionSettled = true ↔ (s.motion.executing = true ↔ s.motion.queue ≠ []) := by
  simp only [State.motionSettled, beq_bool_iff, Bool.not_eq_true', List.isEmpty_eq_false_iff]

theorem cycleSafe_iff (s : State) : s.cycleSafe = true ↔ s.motionSettled = true ∧ s.Bound := by
  have bound : s.Bound ↔ s.cycle.Bound ∧ s.motion.Bound s.cycle.fault.isSome ∧
      (s.bed.beacon = true ↔ s.cycle.state = .held ∨ s.cycle.state = .halted) :=
    ⟨fun h => ⟨h.cycle, h.motion, h.beacon⟩, fun ⟨a, b, c⟩ => ⟨a, b, c⟩⟩
  simp only [State.cycleSafe, Bool.and_eq_true, haltSafe_iff, recordsSafe_iff, beaconSafe_iff, settleSafe_iff, bound]
  constructor
  · rintro ⟨⟨⟨⟨settled, fault, still⟩, hold, taken, before, kept⟩, beacon⟩, settle⟩
    exact ⟨settled, ⟨fault, hold, taken, before, kept, settle⟩,
      ⟨fun h => ((motionSettled_iff s).mp settled).mp h, still⟩, beacon⟩
  · rintro ⟨settled, ⟨fault, hold, taken, before, kept, settle⟩, ⟨_, still⟩, beacon⟩
    exact ⟨⟨⟨⟨settled, fault, still⟩, hold, taken, before, kept⟩, beacon⟩, settle⟩

/-! ### Every effect keeps the bindings -/

theorem CycleControl.Bound.fault_none {c : CycleControl} (h : c.Bound) (free : c.state ≠ .halted) : c.fault = none := by
  rw [← Option.not_isSome_iff_eq_none, h.fault]
  exact free

theorem CycleControl.Bound.before_none {c : CycleControl} (h : c.Bound) (free : c.state ≠ .testcut) :
    c.before = none := by
  rw [← Option.not_isSome_iff_eq_none, h.before]
  exact free

theorem CycleControl.Bound.of_standing {c x : CycleControl} (h : c.Bound) (same : c.Standing x) : x.Bound where
  fault := by rw [same.fault, same.state]; exact h.fault
  hold := by rw [same.hold, same.state]; exact h.hold
  taken := by rw [same.taken, same.state]; exact h.taken
  before := by rw [same.before, same.state]; exact h.before
  kept := by rw [same.before]; exact h.kept
  settle := by
    rw [same.state]
    rcases same.timer with timer | timer | measuring
    · rw [timer]; exact h.settle
    · rw [timer]; exact fun h => nomatch h
    · exact fun _ => measuring

/-- The cycle controller in a state other than HALTED with its own record: no fault, no test cut. -/
theorem CycleControl.bound_of {c : CycleControl} (fault : c.fault = none) (before : c.before = none)
    (state : c.state ≠ .halted ∧ c.state ≠ .testcut) (hold : c.hold.isSome = true ↔ c.state = .held)
    (taken : c.taken.isSome = true ↔ c.state = .suspended)
    (settle : c.settleTimer.isSome = true → c.state = .measuring) :
    c.Bound where
  fault := by rw [fault]; exact ⟨fun h => (nomatch h), fun h => (state.1 h).elim⟩
  hold := hold
  taken := taken
  before := by rw [before]; exact ⟨fun h => (nomatch h), fun h => (state.2 h).elim⟩
  kept := by rw [before]; exact fun _ h => nomatch h
  settle := settle

/-- A fault entry leaves every record but the fault record empty (R145, R146). -/
theorem bound_cycle_faultEntry (s : State) (k : FaultKind) (d : FaultDetail) (e : Option Entry) :
    (s.faultEntry k d e).cycle.Bound := by
  rw [cycle_faultEntry]
  exact ⟨⟨fun _ => rfl, fun _ => rfl⟩, ⟨fun h => (nomatch h), fun h => (nomatch h)⟩,
    ⟨fun h => (nomatch h), fun h => (nomatch h)⟩,
    ⟨fun h => (nomatch h), fun h => (nomatch h)⟩, fun _ h => (nomatch h), fun h => (nomatch h)⟩

theorem executing_faultEntry (s : State) (k : FaultKind) (d : FaultDetail) (e : Option Entry) :
    (s.faultEntry k d e).motion.executing = false := by
  rw [motion_faultEntry]
  rfl

theorem tools_faultEntry (s : State) (k : FaultKind) (d : FaultDetail) (e : Option Entry) :
    (s.faultEntry k d e).motion.kiss = .raised ∧ (s.faultEntry k d e).motion.thru = .raised := by
  rw [motion_faultEntry]
  exact ⟨rfl, rfl⟩

theorem bound_faultEntry (s : State) (k : FaultKind) (d : FaultDetail) (e : Option Entry) :
    (s.faultEntry k d e).Bound where
  cycle := bound_cycle_faultEntry s k d e
  motion := by
    refine ⟨fun h => ?_, fun _ => ⟨queue_faultEntry s k d e, executing_faultEntry s k d e, tools_faultEntry s k d e⟩⟩
    rw [executing_faultEntry] at h
    cases h
  beacon := by
    rw [bed_faultEntry, cycle_faultEntry]
    exact ⟨fun _ => .inr rfl, fun _ => rfl⟩

theorem MotionUnit.Bound.congr {m x : MotionUnit} {f g : Bool} (h : m.Bound f) (queue : x.queue = m.queue)
    (executing : x.executing = m.executing) (kiss : x.kiss = m.kiss) (thru : x.thru = m.thru) (fault : g = f) :
    x.Bound g := by
  obtain ⟨queued, still⟩ := h
  refine ⟨?_, ?_⟩
  · rw [queue, executing]
    exact queued
  · rw [queue, executing, kiss, thru, fault]
    exact still

/-- The motion unit with no fault latched: only that it executes the head of its queue is asked. -/
theorem MotionUnit.bound_unlatched {m : MotionUnit} (queued : m.executing = true → m.queue ≠ []) : m.Bound false :=
  ⟨queued, fun h => nomatch h⟩

/-- An entry that leaves the queue leaves nothing executing; behind a fault there was none. -/
theorem MotionUnit.Bound.ended {m x : MotionUnit} {f : Bool} (h : m.Bound f) (queue : x.queue = m.queue.tail)
    (executing : x.executing = false) (kiss : x.kiss = m.kiss) (thru : x.thru = m.thru) : x.Bound f := by
  refine ⟨fun busy => ?_, fun latched => ?_⟩
  · rw [executing] at busy
    cases busy
  · obtain ⟨empty, _, kissUp, thruUp⟩ := h.still latched
    rw [queue, empty, kiss, thru]
    exact ⟨rfl, executing, kissUp, thruUp⟩

/-- An entry that may start stands in the queue, so no fault is latched. -/
theorem State.Bound.fault_of_mayStart {s : State} {e : Entry} (h : s.Bound) (start : s.mayStart e) :
    s.cycle.fault.isSome = false := by
  obtain ⟨_, front, _⟩ := start
  rw [← Bool.not_eq_true]
  intro latched
  rw [(h.motion.still latched).1] at front
  cases front

theorem queue_of_mayStart {s : State} {e : Entry} (start : s.mayStart e) : s.motion.queue ≠ [] := by
  obtain ⟨_, front, _⟩ := start
  rintro empty
  rw [empty] at front
  cases front

theorem State.Bound.started {s t : State} {e : Entry} (h : s.Bound) (start : s.mayStart e)
    (queue : t.motion.queue = s.motion.queue) (cycle : t.cycle = s.cycle) (beacon : t.bed.beacon = s.bed.beacon) :
    t.Bound where
  cycle := cycle ▸ h.cycle
  motion := by
    rw [cycle, h.fault_of_mayStart start]
    exact MotionUnit.bound_unlatched fun _ => queue ▸ queue_of_mayStart start
  beacon := by
    rw [cycle, beacon]
    exact h.beacon

/-- The run goes from a state with no fault and no test cut to one with the record that the new state holds. -/
theorem State.Bound.went {s t : State} (h : s.Bound) (free : s.mayGo) (motion : t.motion = s.motion)
    (fault : t.cycle.fault = s.cycle.fault) (before : t.cycle.before = s.cycle.before)
    (state : t.cycle.state ≠ .halted ∧ t.cycle.state ≠ .testcut)
    (hold : t.cycle.hold.isSome = true ↔ t.cycle.state = .held)
    (taken : t.cycle.taken.isSome = true ↔ t.cycle.state = .suspended)
    (settle : t.cycle.settleTimer.isSome = true → t.cycle.state = .measuring)
    (beacon : t.bed.beacon = true ↔ t.cycle.state = .held ∨ t.cycle.state = .halted) : t.Bound where
  cycle := CycleControl.bound_of (fault.trans (h.cycle.fault_none free.1)) (before.trans (h.cycle.before_none free.2))
    state hold taken settle
  motion := by
    rw [motion, fault]
    exact h.motion
  beacon := beacon

theorem bound_go {s : State} {c : CycleState} (h : s.Bound) (free : s.mayGo) (plain : c.plain = true) :
    (s.setCycle c).Bound := by
  cases c with
  | suspended | held | halted | testcut => cases plain
  | measuring =>
    exact h.went free rfl rfl rfl ⟨fun h => (nomatch h), fun h => (nomatch h)⟩
      ⟨fun h => (nomatch h), fun h => (nomatch h)⟩ ⟨fun h => (nomatch h), fun h => (nomatch h)⟩ (fun _ => rfl)
      ⟨fun h => (nomatch h), fun h => h.elim (fun h => nomatch h) fun h => nomatch h⟩
  | idle | homing | cutting | feeding =>
    exact h.went free rfl rfl rfl ⟨fun h => (nomatch h), fun h => (nomatch h)⟩
      ⟨fun h => (nomatch h), fun h => (nomatch h)⟩ ⟨fun h => (nomatch h), fun h => (nomatch h)⟩ (fun h => nomatch h)
      ⟨fun h => (nomatch h), fun h => h.elim (fun h => nomatch h) fun h => nomatch h⟩

theorem bound_endTestCut {s : State} (h : s.Bound) (inTest : s.cycle.state = .testcut) : s.endTestCut.Bound := by
  obtain ⟨b, stood⟩ := Option.isSome_iff_exists.mp (h.cycle.before.mpr inTest)
  obtain ⟨state, hold, taken⟩ := h.cycle.kept b stood
  have fault : s.cycle.fault = none := h.cycle.fault_none (by rw [inTest]; exact fun h => nomatch h)
  have restored : s.endTestCut = (s.raiseTools.setCycle b.state).withCycle
      { (s.raiseTools.setCycle b.state).cycle with 
        hold := b.hold, taken := b.taken, before := none, testCuts := 0 } := by
    unfold State.endTestCut
    dsimp only
    rw [State.cycle_raiseTools, stood]
  rw [restored]
  refine ⟨CycleControl.bound_of fault rfl ?_ hold taken fun running => ?_, ⟨h.motion.queued, fun latched => ?_⟩, ?_⟩
  · show b.state ≠ .halted ∧ b.state ≠ .testcut
    rcases state with e | e | e
    all_goals simp [e]
  · have stopped : (if b.state = .measuring then s.cycle.settleTimer else none).isSome = true := running
    rcases state with e | e | e
    all_goals simp [e] at stopped
  · have latched : s.cycle.fault.isSome = true := latched
    rw [fault] at latched
    cases latched
  · show (decide (b.state = .held) || decide (b.state = .halted)) = true ↔ _
    rw [Bool.or_eq_true, decide_eq_true_iff, decide_eq_true_iff]
    exact Iff.rfl

theorem bound_clearFault {s : State} {r : FaultRecord} (h : s.Bound) (latched : s.cycle.fault = some r) :
    s.clearFault.Bound := by
  have halted : s.cycle.state = .halted := h.cycle.fault.mp (by rw [latched]; rfl)
  have before : s.cycle.before = none := h.cycle.before_none (by rw [halted]; exact fun h => nomatch h)
  have motion : s.motion.Bound false := MotionUnit.bound_unlatched h.motion.queued
  unfold State.clearFault
  extract_lets c t u
  split
  · exact ⟨CycleControl.bound_of rfl before ⟨fun h => (nomatch h), fun h => (nomatch h)⟩ ⟨fun _ => rfl, fun _ => rfl⟩
      ⟨fun h => (nomatch h), fun h => (nomatch h)⟩ fun h => (nomatch h), motion, ⟨fun _ => .inl rfl, fun _ => rfl⟩⟩
  · exact ⟨CycleControl.bound_of rfl before ⟨fun h => (nomatch h), fun h => (nomatch h)⟩
      ⟨fun h => (nomatch h), fun h => (nomatch h)⟩ ⟨fun h => (nomatch h), fun h => (nomatch h)⟩ fun h => (nomatch h),
      motion, ⟨fun h => (nomatch h), fun h => h.elim (fun h => nomatch h) fun h => nomatch h⟩⟩

theorem bound_testCut {s : State} (h : s.Bound) (standing : s.standing = true) :
    ((s.setCycle .testcut).withCycle { (s.setCycle .testcut).cycle with
      before := some ⟨s.cycle.state, s.cycle.hold, s.cycle.taken⟩, testCuts := 0 }).Bound := by
  have state : s.cycle.state = .idle ∨ s.cycle.state = .suspended ∨ s.cycle.state = .held := by
    simpa [State.standing, or_assoc] using standing
  have fault : s.cycle.fault = none := h.cycle.fault_none (by rcases state with e | e | e <;> simp [e])
  refine ⟨⟨?_, ⟨fun h => (nomatch h), fun h => (nomatch h)⟩, ⟨fun h => (nomatch h), fun h => (nomatch h)⟩,
    ⟨fun _ => rfl, fun _ => rfl⟩, ?_, fun h => (nomatch h)⟩, h.motion,
    ⟨fun h => (nomatch h), fun h => h.elim (fun h => nomatch h) fun h => nomatch h⟩⟩
  · show s.cycle.fault.isSome = true ↔ _
    rw [fault]
    exact ⟨fun h => (nomatch h), fun h => (nomatch h)⟩
  · rintro b ⟨⟩
    exact ⟨state, h.cycle.hold, h.cycle.taken⟩

theorem bound_followOn {s : State} {r : FaultRecord} (h : s.Bound) (k : FaultKind) (latched : s.cycle.fault = some r) :
    (s.followOnFault k r).Bound := by
  have halted : s.cycle.state = .halted := h.cycle.fault.mp (by rw [latched]; rfl)
  have still : s.motion.Bound true := by
    have m := h.motion
    rw [latched] at m
    exact m
  obtain ⟨_, hold, taken, before, kept, settle⟩ := h.cycle
  unfold State.followOnFault
  extract_lets _ u b
  have cycle : b.cycle.Bound := ⟨⟨fun _ => halted, fun _ => rfl⟩, hold, taken, before, kept, settle⟩
  have beacon : b.bed.beacon = true ↔ b.cycle.state = .held ∨ b.cycle.state = .halted :=
    ⟨fun _ => .inr halted, fun _ => rfl⟩
  split
  · exact ⟨cycle, still.congr rfl rfl rfl rfl rfl, beacon⟩
  · exact ⟨cycle, still, beacon⟩

theorem bound_remove {m : MotionUnit} {f : Bool} (h : m.Bound f) (which : Entry → Bool) : (m.remove which).Bound f := by
  unfold MotionUnit.remove
  split
  · rename_i busy
    split
    · exact h
    · rename_i e rest front
      refine ⟨fun _ => List.cons_ne_nil _ _, fun latched => ?_⟩
      rw [(h.still latched).1] at front
      cases front
  · rename_i idle
    refine ⟨fun busy => (idle busy).elim, fun latched => ?_⟩
    obtain ⟨empty, tools⟩ := h.still latched
    refine ⟨?_, tools⟩
    show m.queue.filter _ = []
    rw [empty]
    rfl

theorem bound_place {s : State} (h : s.Bound) (e : Entry) (free : s.cycle.state ≠ .halted) : (s.place e).Bound := by
  unfold State.place
  split
  · refine ⟨h.cycle, ?_, h.beacon⟩
    show MotionUnit.Bound _ s.cycle.fault.isSome
    rw [h.cycle.fault_none free]
    exact MotionUnit.bound_unlatched fun _ => List.append_ne_nil_of_right_ne_nil _ (List.cons_ne_nil e [])
  · exact h

/-- Every effect keeps what binds the cycle. -/
theorem bound_effect {s t : State} (h : Effect s t) (start : s.Bound) : t.Bound := by
  have ⟨cycle, motion, beacon⟩ := start
  cases h with
  | emit | link | store | nest | marks | plan => exact ⟨cycle, motion, beacon⟩
  | cycle x standing =>
    refine ⟨cycle.of_standing standing, ?_, ?_⟩
    · show s.motion.Bound x.fault.isSome
      rw [standing.fault]
      exact motion
    · show s.bed.beacon = true ↔ x.state = .held ∨ x.state = .halted
      rw [standing.state]
      exact beacon
  | bed x standing =>
    refine ⟨cycle, motion, ?_⟩
    show x.beacon = true ↔ _
    rw [standing.beacon]
    exact beacon
  | motion x standing =>
    exact ⟨cycle, motion.congr standing.queue standing.executing standing.kiss standing.thru rfl, beacon⟩
  | go c free plain => exact bound_go start free plain
  | suspend taken free =>
    refine start.went free rfl rfl rfl ⟨fun h => (nomatch h), fun h => (nomatch h)⟩
      ⟨fun h => (nomatch h), fun h => (nomatch h)⟩ ⟨fun _ => rfl, fun _ => rfl⟩ (fun h => nomatch h)
      ⟨fun h => (nomatch h), fun h => h.elim (fun h => nomatch h) fun h => nomatch h⟩
  | hold r free =>
    refine start.went free rfl rfl rfl ⟨fun h => (nomatch h), fun h => (nomatch h)⟩ ⟨fun _ => rfl, fun _ => rfl⟩
      ⟨fun h => (nomatch h), fun h => (nomatch h)⟩ (fun h => nomatch h) ⟨fun _ => .inl rfl, fun _ => rfl⟩
  | testCut standing => exact bound_testCut start standing
  | endTestCut inTest => exact bound_endTestCut start inTest
  | fault k d e => exact bound_faultEntry s k d e
  | slip d => exact bound_faultEntry _ _ d none
  | followOn k r latched => exact bound_followOn start k latched
  | clearFault r latched => exact bound_clearFault start latched
  | place e free => exact bound_place start e free
  | remove which => exact ⟨cycle, bound_remove motion which, beacon⟩
  | raiseTools =>
    refine ⟨cycle, ⟨motion.queued, fun latched => ?_⟩, beacon⟩
    obtain ⟨empty, idle, _⟩ := motion.still latched
    exact ⟨empty, idle, rfl, rfl⟩
  | startMove e v begins => exact start.started begins rfl rfl rfl
  | startCut tool p r v begins => cases tool <;> exact start.started begins rfl rfl rfl
  | startFeed d begins => exact start.started begins (queue_startFeed s d) (cycle_startFeed s d) (beacon_startFeed s d)
  | endEntry | reach | home | endFeed => exact ⟨cycle, motion.ended rfl rfl rfl rfl, beacon⟩
  | stopDrive => exact ⟨cycle, motion.congr rfl rfl rfl rfl rfl, beacon⟩
  | follow => exact ⟨cycle, motion.congr rfl rfl rfl rfl rfl, beacon⟩

theorem bound_event {s t : State} (h : Event s t) (start : s.Bound) : t.Bound := by
  cases h with
  | effect h => exact bound_effect h start
  | link x => exact ⟨start.cycle, start.motion, start.beacon⟩
  | reset cause wires =>
    exact ⟨CycleControl.bound_of rfl rfl ⟨fun h => (nomatch h), fun h => (nomatch h)⟩
      ⟨fun h => (nomatch h), fun h => (nomatch h)⟩ ⟨fun h => (nomatch h), fun h => (nomatch h)⟩ fun h => (nomatch h),
      MotionUnit.bound_unlatched fun h => (nomatch h),
      ⟨fun h => (nomatch h), fun h => h.elim (fun h => nomatch h) fun h => nomatch h⟩⟩

/-! ### The close leaves the motion unit settled -/

theorem settled_of_executing {s : State} (h : s.Bound) (busy : s.motion.executing = true) : s.motionSettled = true :=
  (motionSettled_iff s).mpr ⟨h.motion.queued, fun _ => busy⟩

theorem settled_of_empty {s : State} (h : s.Bound) (empty : s.motion.queue = []) : s.motionSettled = true :=
  (motionSettled_iff s).mpr ⟨h.motion.queued, fun h => (h empty).elim⟩


/-- A HOME that is taken leaves the motion unit executing, or, home at once, its entry gone and nothing executing. -/
theorem settleHome_cases (s : State) : s.settleHome = s ∨
    (s.settleHome.motion.executing = false ∧ s.settleHome.motion.queue = s.motion.queue.tail) := by
  unfold State.settleHome
  split
  · right
    unfold State.completeHome State.restTools
    extract_lets a m b c
    have ended : c.motion.executing = false ∧ c.motion.queue = s.motion.queue.tail := by
      unfold c
      split <;> exact ⟨rfl, rfl⟩
    split <;> exact ended
  · exact .inl rfl

theorem raiseFault_of_unlatched {s : State} (h : s.cycle.fault.isSome = false) (k : FaultKind) (d : FaultDetail)
    (e : Option Entry) : (s.raiseFault k d e).motion.queue = [] := by
  have unlatched : s.cycle.fault = none := by simpa using h
  rw [raiseFault_unlatched unlatched]
  exact queue_faultEntry ..

/-- What the take of the head entry leaves: the entry executing, or an empty queue behind a fault, or, for a HOME that
is home at once, the rest of the queue with nothing executing. -/
theorem takeEntry_cases {s : State} (h : s.Bound) {e : Entry} {rest : List Entry} (front : s.motion.queue = e :: rest) :
    (s.takeEntry e).motion.executing = true ∨ (s.takeEntry e).motion.queue = [] ∨
      (e = .home ∧ (s.takeEntry e).motion.queue = rest) := by
  have unlatched : s.cycle.fault.isSome = false := by
    rw [← Bool.not_eq_true]
    intro latched
    rw [(h.motion.still latched).1] at front
    cases front
  unfold State.takeEntry
  split
  · exact .inr (.inl (raiseFault_of_unlatched unlatched ..))
  · split
    · exact .inr (.inl (raiseFault_of_unlatched unlatched ..))
    · split
      · split
        · exact .inr (.inl (raiseFault_of_unlatched unlatched ..))
        · left
          unfold State.startFeed
          extract_lets t m
          exact (rfl : t.motion.executing = true)
      · rcases settleHome_cases s.startHome with same | ⟨_, queue⟩
        · rw [same]
          exact .inl rfl
        · refine .inr (.inr ⟨rfl, queue.trans ?_⟩)
          show s.motion.queue.tail = rest
          rw [front]
          rfl
      · exact .inl rfl
      · exact .inl rfl
      · rename_i tool _ _ _
        cases tool <;> exact .inl rfl

theorem bound_flow {s t : State} (h : Flow s t) (start : s.Bound) : t.Bound := by
  induction h with
  | refl => exact start
  | tail _ last ih => exact bound_effect last ih

/-- With as many takes as the queue has entries, the motion unit ends executing or with its queue empty (R120). -/
theorem settled_takeEntries (n : Nat) (s : State) (h : s.Bound) (enough : s.motion.queue.length ≤ n) :
    (s.takeEntries n).motionSettled = true := by
  induction n generalizing s with
  | zero => exact settled_of_empty h (List.eq_nil_of_length_eq_zero (Nat.le_zero.mp enough))
  | succ n ih =>
    unfold State.takeEntries
    split
    · exact settled_of_executing h ‹_›
    · rename_i idle
      split
      · exact settled_of_empty h ‹_›
      · rename_i e rest front
        have took : (s.takeEntry e).Bound :=
          bound_flow (flow_takeEntry s e (by simpa using idle) (by rw [front]; rfl)) h
        have cases := takeEntry_cases h front
        have short : rest.length ≤ n := by
          rw [front] at enough
          exact Nat.le_of_succ_le_succ enough
        dsimp only
        split
        · rcases cases with busy | empty | ⟨_, queue⟩
          · rw [takeEntries_settled (settled_of_executing took busy)]
            exact settled_of_executing took busy
          · exact ih _ took (empty ▸ Nat.zero_le n)
          · exact ih _ took (queue ▸ short)
        · rename_i notHome
          rcases cases with busy | empty | ⟨isHome, _⟩
          · exact settled_of_executing took busy
          · exact settled_of_empty took empty
          · exact (notHome isHome).elim

theorem settled_close {s : State} (h : s.Bound) : s.close.motionSettled = true :=
  settled_takeEntries s.motion.queue.length s h (Nat.le_refl _)

/-- Every command that begins with the motion unit settled ends with it settled. -/
theorem settled_exec {c : Instr} {s t : State} (ran : exec c s = .next t) (settled : s.motionSettled = true)
    (bound : s.Bound) : t.motionSettled = true := by
  obtain ⟨u, next, ended⟩ := ends_exec c s
  obtain rfl : u = t := by rw [ran] at next; cases next; rfl
  cases ended with
  | closed v course => exact settled_close (kept_course (fun _ _ => bound_event) course bound)
  | waited x => exact settled

/-- Settles O56: every event keeps what binds the cycle, and the close leaves the motion unit settled. -/
theorem cycleBindingsKept : Obligations.CycleBindingsKept := by
  intro s t safe stepped
  obtain ⟨settled, bound⟩ := (cycleSafe_iff s).mp safe
  refine (cycleSafe_iff t).mpr ⟨?_, ?_⟩
  · rcases step_inv stepped with rfl | ⟨c, rest, ran⟩
    · exact settled
    · exact settled_exec ran settled ⟨bound.cycle, bound.motion, bound.beacon⟩
  · exact kept_step (K := State.Bound) (fun _ _ => bound_event) (fun _ _ h => ⟨h.cycle, h.motion, h.beacon⟩) stepped
      bound

end Sys2Proof.Machine

namespace Sys2Proof.Machine

/-! ### Tools, drive, head and moves inside a command -/

/-- The tool lines follow the tools, FEED_DRIVE the FEED that executes, the head position the homed flag, and what
executes passed the limit check (R117, R120, R121, R127). -/
structure State.Steady (s : State) : Prop where
  kiss : s.bed.toolKiss.isSome = true ↔ s.motion.kiss = .lowered
  thru : s.bed.toolThru.isSome = true ↔ s.motion.thru = .lowered
  one : ¬(s.motion.kiss = .lowered ∧ s.motion.thru = .lowered)
  drive : s.bed.feedDrive = s.feedExecuting
  raised : s.feedExecuting = true → s.motion.kiss = .raised ∧ s.motion.thru = .raised
  head : s.motion.head.isSome = s.motion.homed
  moves : s.movesHomed = true

theorem steady_iff (s : State) : s.Steady ↔ s.toolsSafe = true ∧ s.driveSafe = true ∧ s.headSafe = true ∧
    s.movesHomed = true := by
  have split : s.Steady ↔ ((s.bed.toolKiss.isSome = true ↔ s.motion.kiss = .lowered) ∧
      (s.bed.toolThru.isSome = true ↔ s.motion.thru = .lowered) ∧
      ¬(s.motion.kiss = .lowered ∧ s.motion.thru = .lowered)) ∧
      (s.bed.feedDrive = s.feedExecuting ∧
        (s.feedExecuting = true → s.motion.kiss = .raised ∧ s.motion.thru = .raised)) ∧
      s.motion.head.isSome = s.motion.homed ∧ s.movesHomed = true :=
    ⟨fun h => ⟨⟨h.kiss, h.thru, h.one⟩, ⟨h.drive, h.raised⟩, h.head, h.moves⟩,
      fun ⟨⟨a, b, c⟩, ⟨d, e⟩, f, g⟩ => ⟨a, b, c, d, e, f, g⟩⟩
  have tools : s.toolsSafe = true ↔ (s.bed.toolKiss.isSome = true ↔ s.motion.kiss = .lowered) ∧
      (s.bed.toolThru.isSome = true ↔ s.motion.thru = .lowered) ∧
      ¬(s.motion.kiss = .lowered ∧ s.motion.thru = .lowered) := by
    rw [State.toolsSafe, Bool.and_eq_true, Bool.and_eq_true, beq_bool_iff, beq_bool_iff, beq_iff_eq, beq_iff_eq,
      Bool.not_eq_true', ← Bool.not_eq_true, Bool.and_eq_true, beq_iff_eq, beq_iff_eq, and_assoc]
  have drive : s.driveSafe = true ↔ s.bed.feedDrive = s.feedExecuting ∧
      (s.feedExecuting = true → s.motion.kiss = .raised ∧ s.motion.thru = .raised) := by
    cases h : s.feedExecuting <;> simp [State.driveSafe, h]
  rw [split, tools, drive, State.headSafe, beq_iff_eq]

/-- The tools and the tool lines as they were. -/
def State.sameTools (s t : State) : Prop :=
  t.motion.kiss = s.motion.kiss ∧ t.motion.thru = s.motion.thru ∧ t.bed.toolKiss = s.bed.toolKiss ∧
    t.bed.toolThru = s.bed.toolThru

theorem feedExecuting_of {s t : State} (h : t.motion.executingEntry = s.motion.executingEntry) :
    t.feedExecuting = s.feedExecuting := by
  unfold State.feedExecuting
  rw [h]

theorem movesHomed_of {s t : State} (h : t.motion.executingEntry = s.motion.executingEntry)
    (homed : t.motion.homed = s.motion.homed) : t.movesHomed = s.movesHomed := by
  unfold State.movesHomed
  rw [h, homed]

theorem executingEntry_of_idle {m : MotionUnit} (h : m.executing = false) : m.executingEntry = none := by
  rw [MotionUnit.executingEntry, h]
  rfl

/-- An effect that leaves the tools, the drive, the head and the executing entry as they were. -/
theorem State.Steady.same {s t : State} (h : s.Steady) (tools : s.sameTools t)
    (drive : t.bed.feedDrive = s.bed.feedDrive) (head : t.motion.head = s.motion.head)
    (homed : t.motion.homed = s.motion.homed) (entry : t.motion.executingEntry = s.motion.executingEntry) :
    t.Steady := by
  obtain ⟨kiss, thru, kissLine, thruLine⟩ := tools
  refine ⟨?_, ?_, ?_, ?_, ?_, ?_, ?_⟩
  · rw [kiss, kissLine]; exact h.kiss
  · rw [thru, thruLine]; exact h.thru
  · rw [kiss, thru]; exact h.one
  · rw [drive, feedExecuting_of entry]; exact h.drive
  · rw [feedExecuting_of entry, kiss, thru]; exact h.raised
  · rw [head, homed]; exact h.head
  · rw [movesHomed_of entry homed]; exact h.moves

/-- Nothing executes and the drive is off. -/
theorem State.Steady.idle {t : State} (kiss : t.bed.toolKiss.isSome = true ↔ t.motion.kiss = .lowered)
    (thru : t.bed.toolThru.isSome = true ↔ t.motion.thru = .lowered)
    (one : ¬(t.motion.kiss = .lowered ∧ t.motion.thru = .lowered)) (drive : t.bed.feedDrive = false)
    (idle : t.motion.executing = false) (head : t.motion.head.isSome = t.motion.homed) : t.Steady := by
  have entry := executingEntry_of_idle idle
  have noFeed : t.feedExecuting = false := by rw [State.feedExecuting, entry]
  refine ⟨kiss, thru, one, drive.trans noFeed.symm, fun feeds => ?_, head, ?_⟩
  · rw [noFeed] at feeds
    cases feeds
  · rw [State.movesHomed, entry]

/-- Both tools raised, their lines off. -/
theorem toolsUp {t : State} (kiss : t.motion.kiss = .raised) (thru : t.motion.thru = .raised)
    (kissLine : t.bed.toolKiss = none) (thruLine : t.bed.toolThru = none) :
    (t.bed.toolKiss.isSome = true ↔ t.motion.kiss = .lowered) ∧
      (t.bed.toolThru.isSome = true ↔ t.motion.thru = .lowered) ∧
      ¬(t.motion.kiss = .lowered ∧ t.motion.thru = .lowered) := by
  rw [kiss, thru, kissLine, thruLine]
  exact ⟨⟨fun h => (nomatch h), fun h => (nomatch h)⟩, ⟨fun h => (nomatch h), fun h => (nomatch h)⟩,
    fun h => nomatch h.1⟩

theorem steady_faultEntry {s : State} (k : FaultKind) (d : FaultDetail) (e : Option Entry)
    (head : s.motion.head.isSome = s.motion.homed) : (s.faultEntry k d e).Steady := by
  obtain ⟨kissUp, thruUp⟩ := tools_faultEntry s k d e
  obtain ⟨kiss, thru, one⟩ := toolsUp (t := s.faultEntry k d e) kissUp thruUp (by rw [bed_faultEntry]; rfl)
    (by rw [bed_faultEntry]; rfl)
  refine .idle kiss thru one (by rw [bed_faultEntry]; rfl) (executing_faultEntry s k d e) ?_
  rw [motion_faultEntry]
  show (if k = .estop ∨ k = .homeFail then none else s.motion.head).isSome =
    if k = .estop ∨ k = .homeFail then false else s.motion.homed
  split
  · rfl
  · exact head

/-- An entry starts: the executing entry is the head of the queue. -/
theorem executingEntry_start {s t : State} {e : Entry} (start : s.mayStart e) (queue : t.motion.queue = s.motion.queue)
    (busy : t.motion.executing = true) : t.motion.executingEntry = some e := by
  obtain ⟨_, front, _⟩ := start
  rw [MotionUnit.executingEntry, busy, if_pos rfl, queue, front]

/-- What passed the limit check may execute (R120). -/
theorem movesHomed_of_limit {t : State} {e : Entry} (entry : t.motion.executingEntry = some e)
    (passed : limitFailure t.motion.homed e = none) : t.movesHomed = true := by
  unfold State.movesHomed
  rw [entry]
  cases e with
  | travel p target => simpa [limitFailure] using passed
  | cut tool target r => simpa [limitFailure] using passed
  | search r =>
    simp only [limitFailure] at passed
    split at passed
    · cases passed
    · split at passed
      · cases passed
      · split at passed <;> simp_all
  | home => rfl
  | feed d => rfl

/-- An entry other than a FEED starts. -/
theorem State.Steady.started {s t : State} {e : Entry} (h : s.Steady) (start : s.mayStart e) (noFeed : e.kind ≠ .feed)
    (queue : t.motion.queue = s.motion.queue) (busy : t.motion.executing = true)
    (homed : t.motion.homed = s.motion.homed) (head : t.motion.head = s.motion.head)
    (drive : t.bed.feedDrive = s.bed.feedDrive)
    (tools : (t.bed.toolKiss.isSome = true ↔ t.motion.kiss = .lowered) ∧
      (t.bed.toolThru.isSome = true ↔ t.motion.thru = .lowered) ∧
      ¬(t.motion.kiss = .lowered ∧ t.motion.thru = .lowered)) : t.Steady := by
  have entry := executingEntry_start start queue busy
  have still : s.feedExecuting = false := by rw [State.feedExecuting, executingEntry_of_idle start.1]
  have feeds : t.feedExecuting = false := by
    rw [State.feedExecuting, entry]
    cases e with
    | feed d => exact (noFeed rfl).elim
    | travel | cut | search | home => rfl
  obtain ⟨kiss, thru, one⟩ := tools
  refine ⟨kiss, thru, one, ?_, fun f => ?_, ?_, movesHomed_of_limit entry ?_⟩
  · rw [drive, h.drive, still, feeds]
  · rw [feeds] at f
    cases f
  · rw [head, homed]
    exact h.head
  · rw [homed]
    exact start.2.2

/-- Both tools raised and the rest as it was. -/
theorem State.Steady.up {s t : State} (h : s.Steady) (kiss : t.motion.kiss = .raised) (thru : t.motion.thru = .raised)
    (kissLine : t.bed.toolKiss = none) (thruLine : t.bed.toolThru = none) (drive : t.bed.feedDrive = s.bed.feedDrive)
    (head : t.motion.head = s.motion.head) (homed : t.motion.homed = s.motion.homed)
    (entry : t.motion.executingEntry = s.motion.executingEntry) : t.Steady := by
  obtain ⟨kissUp, thruUp, one⟩ := toolsUp kiss thru kissLine thruLine
  refine ⟨kissUp, thruUp, one, ?_, fun _ => ⟨kiss, thru⟩, ?_, ?_⟩
  · rw [drive, feedExecuting_of entry]
    exact h.drive
  · rw [head, homed]
    exact h.head
  · rw [movesHomed_of entry homed]
    exact h.moves

/-- An entry ends with its drive off; the head stands where the homed flag says it may. -/
theorem State.Steady.ended {s t : State} (h : s.Steady) (tools : s.sameTools t) (drive : t.bed.feedDrive = false)
    (idle : t.motion.executing = false) (head : t.motion.head.isSome = t.motion.homed) : t.Steady := by
  obtain ⟨kiss, thru, kissLine, thruLine⟩ := tools
  refine .idle ?_ ?_ ?_ drive idle head
  · rw [kiss, kissLine]
    exact h.kiss
  · rw [thru, thruLine]
    exact h.thru
  · rw [kiss, thru]
    exact h.one

theorem executingEntry_congr {m x : MotionUnit} (executing : x.executing = m.executing)
    (queue : m.executing = true → x.queue.head? = m.queue.head?) : x.executingEntry = m.executingEntry := by
  unfold MotionUnit.executingEntry
  rw [executing]
  split
  · exact queue ‹_›
  · rfl

/-- A new entry stands behind the executing one (R118). -/
theorem executingEntry_place {s : State} (bound : s.Bound) (e : Entry) :
    (s.place e).motion.executingEntry = s.motion.executingEntry := by
  unfold State.place
  split
  · refine executingEntry_congr rfl fun busy => ?_
    show (s.motion.queue ++ [e]).head? = _
    cases h : s.motion.queue with
    | nil => exact (bound.motion.queued busy h).elim
    | cons => rfl
  · rfl

/-- The executing entry is not removed (R119). -/
theorem executingEntry_remove (m : MotionUnit) (which : Entry → Bool) :
    (m.remove which).executingEntry = m.executingEntry := by
  cases busy : m.executing with
  | false =>
    have idle : (m.remove which).executing = false := by
      simp [MotionUnit.remove, busy]
    rw [executingEntry_of_idle busy, executingEntry_of_idle idle]
  | true => cases queue : m.queue <;> simp [MotionUnit.remove, MotionUnit.executingEntry, busy, queue]

/-- Behind a latched fault nothing executes and the drive is off (R130). -/
theorem drive_of_latched {s : State} (bound : s.Bound) (h : s.Steady) {r : FaultRecord}
    (latched : s.cycle.fault = some r) : s.motion.executing = false ∧ s.bed.feedDrive = false := by
  obtain ⟨_, idle, _⟩ := bound.motion.still (by rw [latched]; rfl)
  refine ⟨idle, ?_⟩
  rw [h.drive, State.feedExecuting, executingEntry_of_idle idle]

theorem steady_followOn {s : State} (bound : s.Bound) (h : s.Steady) (k : FaultKind) {r : FaultRecord}
    (latched : s.cycle.fault = some r) : (s.followOnFault k r).Steady := by
  obtain ⟨empty, idle, kiss, thru⟩ := bound.motion.still (by rw [latched]; rfl)
  unfold State.followOnFault
  extract_lets _ counted made
  obtain ⟨kissUp, thruUp, one⟩ := toolsUp (t := made) kiss thru rfl rfl
  split
  · exact .idle kissUp thruUp one rfl idle rfl
  · exact .idle kissUp thruUp one rfl idle h.head

/-- The other tool is raised when one is lowered (R121). -/
theorem tools_lowerTool (s : State) (tool : Tool) :
    ((s.lowerTool tool).bed.toolKiss.isSome = true ↔ (s.lowerTool tool).motion.kiss = .lowered) ∧
      ((s.lowerTool tool).bed.toolThru.isSome = true ↔ (s.lowerTool tool).motion.thru = .lowered) ∧
      ¬((s.lowerTool tool).motion.kiss = .lowered ∧ (s.lowerTool tool).motion.thru = .lowered) := by
  cases tool with
  | kiss => exact ⟨⟨fun _ => rfl, fun _ => rfl⟩, ⟨fun h => (nomatch h), fun h => (nomatch h)⟩, fun h => nomatch h.2⟩
  | thru => exact ⟨⟨fun h => (nomatch h), fun h => (nomatch h)⟩, ⟨fun _ => rfl, fun _ => rfl⟩, fun h => nomatch h.1⟩

theorem startFeed_motion (s : State) (d : Nat) : (s.startFeed d).motion.executing = true ∧
    (s.startFeed d).motion.kiss = .raised ∧ (s.startFeed d).motion.thru = .raised ∧
    (s.startFeed d).motion.head = s.motion.head ∧ (s.startFeed d).motion.homed = s.motion.homed := by
  unfold State.startFeed
  extract_lets t m
  exact ⟨(rfl : t.motion.executing = true), (rfl : t.motion.kiss = .raised), (rfl : t.motion.thru = .raised),
    (rfl : t.motion.head = s.motion.head), (rfl : t.motion.homed = s.motion.homed)⟩

theorem startFeed_bed (s : State) (d : Nat) : (s.startFeed d).bed.toolKiss = none ∧
    (s.startFeed d).bed.toolThru = none ∧ (s.startFeed d).bed.feedDrive = true := by
  unfold State.startFeed
  extract_lets t m
  exact ⟨(rfl : t.bed.toolKiss = none), (rfl : t.bed.toolThru = none), rfl⟩

/-- A FEED starts with both tools raised and its drive on (R127). -/
theorem steady_startFeed {s : State} (h : s.Steady) {d : Nat} (start : s.mayStart (.feed d)) :
    (s.startFeed d).Steady := by
  obtain ⟨busy, kiss, thru, head, homed⟩ := startFeed_motion s d
  obtain ⟨kissLine, thruLine, drive⟩ := startFeed_bed s d
  obtain ⟨kissUp, thruUp, one⟩ := toolsUp kiss thru kissLine thruLine
  have entry := executingEntry_start start (queue_startFeed s d) busy
  refine ⟨kissUp, thruUp, one, ?_, fun _ => ⟨kiss, thru⟩, ?_, ?_⟩
  · rw [drive, State.feedExecuting, entry]
  · rw [head, homed]
    exact h.head
  · rw [State.movesHomed, entry]

/-- A TRAVEL or a CUT that executes does so homed, and no FEED executes then (R120). -/
theorem homed_of_reach {s : State} (h : s.Steady) {e : Entry} {t : BedPos} (entry : s.motion.executingEntry = some e)
    (target : (∃ p, e = .travel p t) ∨ ∃ tool r, e = .cut tool t r) :
    s.motion.homed = true ∧ s.feedExecuting = false := by
  have moves := h.moves
  rw [State.movesHomed, entry] at moves
  rw [State.feedExecuting, entry]
  rcases target with ⟨p, rfl⟩ | ⟨tool, r, rfl⟩ <;> exact ⟨(Bool.and_eq_true_iff.mp moves).1, rfl⟩

theorem steady_effect {s t : State} (e : Effect s t) (bound : s.Bound) (h : s.Steady) : t.Steady := by
  cases e with
  | emit | link | store | nest | marks | plan | cycle | go | suspend | hold | testCut =>
    exact h.same ⟨rfl, rfl, rfl, rfl⟩ rfl rfl rfl rfl
  | bed x standing =>
    exact h.same ⟨rfl, rfl, standing.toolKiss, standing.toolThru⟩ standing.feedDrive rfl rfl rfl
  | motion x standing =>
    refine h.same ⟨standing.kiss, standing.thru, rfl, rfl⟩ rfl standing.head standing.homed ?_
    exact executingEntry_congr standing.executing fun _ => congrArg List.head? standing.queue
  | endTestCut inTest =>
    unfold State.endTestCut
    extract_lets raised
    split <;> exact h.up rfl rfl rfl rfl rfl rfl rfl rfl
  | fault k d entry => exact steady_faultEntry k d entry h.head
  | slip d => exact steady_faultEntry _ d none h.head
  | followOn k r latched => exact steady_followOn bound h k latched
  | clearFault r latched =>
    unfold State.clearFault
    extract_lets cleared held
    split <;> exact h.same ⟨rfl, rfl, rfl, rfl⟩ rfl rfl rfl rfl
  | place entry free =>
    have executing := executingEntry_place bound entry
    refine h.same ?_ ?_ ?_ ?_ executing <;> unfold State.place <;> split
    · exact ⟨rfl, rfl, rfl, rfl⟩
    · exact ⟨rfl, rfl, rfl, rfl⟩
    all_goals rfl
  | remove which =>
    have kept : (s.motion.remove which).kiss = s.motion.kiss ∧ (s.motion.remove which).thru = s.motion.thru ∧
        (s.motion.remove which).head = s.motion.head ∧ (s.motion.remove which).homed = s.motion.homed := by
      unfold MotionUnit.remove
      split
      · split <;> exact ⟨rfl, rfl, rfl, rfl⟩
      · exact ⟨rfl, rfl, rfl, rfl⟩
    obtain ⟨kiss, thru, head, homed⟩ := kept
    exact h.same ⟨kiss, thru, rfl, rfl⟩ rfl head homed (executingEntry_remove s.motion which)
  | raiseTools => exact h.up rfl rfl rfl rfl rfl rfl rfl rfl
  | startMove e v start noFeed =>
    exact h.started start noFeed rfl rfl rfl rfl rfl (toolsUp rfl rfl rfl rfl)
  | startCut tool p r v start =>
    have tools := tools_lowerTool (s.startExecuting v) tool
    cases tool <;> exact h.started start (fun k => nomatch k) rfl rfl rfl rfl rfl tools
  | startFeed d start => exact steady_startFeed h start
  | endEntry noFeed => exact h.ended ⟨rfl, rfl, rfl, rfl⟩ (h.drive.trans noFeed) rfl h.head
  | reach e t entry target =>
    obtain ⟨homed, noFeed⟩ := homed_of_reach h entry target
    exact h.ended ⟨rfl, rfl, rfl, rfl⟩ (h.drive.trans noFeed) rfl homed.symm
  | home executing =>
    have noFeed : s.feedExecuting = false := by
      unfold State.homeExecuting at executing
      unfold State.feedExecuting
      split at executing
      · rename_i entry
        rw [entry]
      · cases executing
    exact h.ended ⟨rfl, rfl, rfl, rfl⟩ (h.drive.trans noFeed) rfl rfl
  | endFeed => exact h.ended ⟨rfl, rfl, rfl, rfl⟩ rfl rfl h.head
  | stopDrive r latched => exact h.ended ⟨rfl, rfl, rfl, rfl⟩ rfl (drive_of_latched bound h latched).1 h.head
  | follow p homed =>
    have follows := h
    obtain ⟨kiss, thru, one, drive, raised, _, moves⟩ := follows
    exact ⟨kiss, thru, one, drive, raised, homed.symm, moves⟩

theorem steady_event {s t : State} (e : Event s t) (bound : s.Bound) (h : s.Steady) : t.Steady := by
  cases e with
  | effect e => exact steady_effect e bound h
  | link x => exact h.same ⟨rfl, rfl, rfl, rfl⟩ rfl rfl rfl rfl
  | reset => exact (steady_iff _).mpr ⟨rfl, rfl, rfl, rfl⟩

/-- Settles O57: every event keeps the tools with their lines, the drive with the FEED that executes, the head with
the homed flag, and moves homed. -/
theorem motionSafetyKept : Obligations.MotionSafetyKept := by
  intro s t safe tools drive head moves stepped
  have kept : t.Bound ∧ t.Steady := kept_step (K := fun u => u.Bound ∧ u.Steady)
    (fun _ _ e ⟨bound, steady⟩ => ⟨bound_event e bound, steady_event e bound steady⟩)
    (fun _ _ ⟨bound, steady⟩ => ⟨⟨bound.cycle, bound.motion, bound.beacon⟩,
      steady.same ⟨rfl, rfl, rfl, rfl⟩ rfl rfl rfl rfl⟩) stepped
    ⟨((cycleSafe_iff s).mp safe).2, (steady_iff s).mpr ⟨tools, drive, head, moves⟩⟩
  exact (steady_iff t).mp kept.2

/-- Settles O60. -/
theorem invariantsHoldAtReset : Obligations.InvariantsHoldAtReset := by
  obtain ⟨wf, blocks, bare⟩ := sound_fresh
  have store : State.reset.store = PanelStore.reset := by
    unfold State.reset State.afterReset
    rfl
  refine ⟨rfl, rfl, rfl, rfl, rfl, rfl, rfl, ?_, ?_, ?_, rfl, rfl⟩ <;> rw [store]
  · exact wf
  · exact blocks
  · exact bare

end Sys2Proof.Machine

/-! The step and the link port: HARDWARE_RESET, LINK_CLEAR, the line side, SET_LINK (R19, R20, R92, R131, R146, R153 to
R161). -/

namespace Sys2Proof.Machine

/-! ### The step -/

/-- Settles O1. -/
theorem stepRunsFrontCommand : Obligations.StepRunsFrontCommand := by
  intro c s
  refine ⟨rfl, fun empty => ?_⟩
  unfold step
  rw [empty]

/-! ### HARDWARE_RESET -/

theorem estopOn_afterReset (old : State) (cause : ResetCause) (wires : Byte) :
    (old.keptThroughReset (State.afterReset cause wires)).estopOn = wires.getLsbD 0 := by
  show ((Table.ofFn fun i : Fin 8 => Line.reset (wires.getLsbD i.val)).get 0).taken = _
  rw [Table.get_ofFn]
  rfl

/-- Settles O4: with the ESTOP wire at 0 the reset leaves the starting values; at 1 the ESTOP fault entry stands behind
them. -/
theorem hardwareResetUnits : Obligations.HardwareResetUnits := by
  refine ⟨fun s cause wires off => ?_, fun s cause wires on => ?_⟩
  · refine ⟨_, exec_hardwareReset cause wires s, ?_⟩
    rw [hardwareReset_eq, estopOn_afterReset, off, if_neg (by decide), flush_quiet rfl]
    refine ⟨rfl, rfl, rfl, ⟨rfl, rfl, rfl, rfl, rfl, rfl, rfl, rfl, rfl, rfl, rfl, rfl, rfl, rfl, rfl, fun i => ?_⟩,
      ⟨rfl, rfl, rfl, rfl, rfl, rfl, rfl, rfl, rfl, rfl⟩, fun i => ?_, ⟨rfl, rfl, rfl, rfl, fun z => ⟨?_, ?_⟩⟩,
      ⟨rfl, rfl, rfl, rfl, rfl, rfl, rfl, rfl, rfl⟩⟩
    · exact Table.get_fill 4 _ i
    · exact (Table.get_ofFn (fun i : Fin 8 => Line.reset (wires.getLsbD i.val)) i).trans rfl
    · exact Table.get_fill 4 _ z
    · exact Table.get_fill 4 _ z
  · refine ⟨_, exec_hardwareReset cause wires s, ?_⟩
    rw [hardwareReset_eq, estopOn_afterReset, on, if_pos rfl]
    generalize made : s.keptThroughReset (State.afterReset cause wires) = u
    have fresh : u.cycle = CycleControl.reset ∧ u.motion = MotionUnit.reset ∧ u.link = LinkPort.reset cause := by
      rw [← made]
      exact ⟨rfl, rfl, rfl⟩
    obtain ⟨cycle, motion, link⟩ := fresh
    have record : u.faultRecord .estop .none = ⟨.estop, .none, .idle, .none, 0, none, none, 0, none⟩ := by
      unfold State.faultRecord CycleControl.qualifier
      rw [cycle, motion]
      rfl
    have active : (u.owedAtFault none).runActive = false := by
      obtain ⟨r, w, owed⟩ := owedAtFault_only u none
      rw [owed, cycle]
      rfl
    have faulted := cycle_faultEntry u .estop .none none
    have moved := motion_faultEntry u .estop .none none
    rw [record] at faulted
    refine ⟨?_, ?_, ?_, ?_, ?_, ?_, ?_, ?_⟩
    · show (State.cycle _).state = _
      rw [State.cycle_flush, faulted]
    · rw [State.cycle_flush, faulted]
      exact active
    · rw [State.bed_flush, bed_faultEntry]
      rfl
    · rw [State.cycle_flush, faulted]
    · exact (congrArg MotionUnit.queue (State.motion_flush _)).trans (queue_faultEntry ..)
    · rw [State.motion_flush, moved]
      rfl
    · rw [State.motion_flush, moved]
      rfl
    · unfold State.flush
      rw [link_faultEntry, record, link]
      rfl

/-! ### LINK_CLEAR -/

/-- A nest run that a link clear drops (R38). -/
def NestUnit.cleared (n : NestUnit) : NestUnit := match n.run with
  | some _ => { n with skyline := [], run := none }
  | none => n

/-- What a link clear leaves before its fault (R20, R38, R160). -/
def State.linkCleared (s : State) : State :=
  ((s.withLink s.link.clear).withStore s.store.linkCleared).withNest s.nest.cleared

theorem linkClears_eq (s : State) : s.linkClears =
    if s.linkClearFaults then s.linkCleared.raiseFault .linkClear .none none else s.linkCleared := by
  have dropped : (if ((s.withLink s.link.clear).withStore s.store.linkCleared).nestRunning then
      ((s.withLink s.link.clear).withStore s.store.linkCleared).dropNest
      else (s.withLink s.link.clear).withStore s.store.linkCleared) = s.linkCleared := by
    unfold State.linkCleared NestUnit.cleared State.nestRunning State.dropNest
    cases run : s.nest.run with
    | none => simp [run, State.withNest, State.withStore, State.withLink]
    | some r => simp [run, State.withNest, State.withStore, State.withLink]
  unfold State.linkClears
  dsimp only
  rw [dropped]
  rfl

theorem exec_linkClear {s : State} (rest : s.atRest) (armed : s.link.armed = true) :
    exec .linkClear s = .next s.linkClears.close := by
  show Host.Outcome.next (if s.link.armed then s.begin.linkClears.close else s.begin.close) = _
  rw [if_pos armed, begin_quiet rest.2]

theorem linkClearFaults_iff (s : State) : s.linkClearFaults = true ↔ s.busy = true ∨ s.cycle.state = .homing ∨
    s.cycle.state = .measuring ∨ s.cycle.state = .cutting ∨ s.cycle.state = .feeding ∨ s.cycle.state = .testcut := by
  simp only [State.linkClearFaults, CycleState.linkClearFaults, Bool.or_eq_true, decide_eq_true_eq, or_assoc]

/-- Settles O5: the clearing changes the link port, the open outline and the nest run alone; a fault behind it finds
them cleared. -/
theorem linkClearClearsOrFaults : Obligations.LinkClearClearsOrFaults := by
  refine ⟨fun s rest armed idle quietState => ?_, fun s rest armed unlatched busy => ?_, fun s rest off => ?_⟩
  · have none : s.linkClearFaults = false := by
      rw [← Bool.not_eq_true, linkClearFaults_iff, idle]
      rcases quietState with h | h | h | h <;> rw [h] <;> simp
    have cleared : s.linkCleared.atRest := ⟨rest.1, rest.2⟩
    rw [exec_linkClear rest armed, linkClears_eq, none, if_neg (by decide), close_rest _ cleared]
    show Host.Outcome.next (State.mk ..) = Host.Outcome.next (State.mk ..)
    have port : s.link.clear = ⟨0, .hunting, [], 0, [⟨0x61, 0, [0, 0], Option.none⟩], false, ⟨.off, 0, 0⟩, Option.none,
        Option.none, false, []⟩ := by
      unfold LinkPort.clear
      rw [rest.2]
      rfl
    rw [← port]
    rfl
  · have faults := (linkClearFaults_iff s).mpr busy
    have still : s.linkCleared.cycle.fault = none := unlatched
    have empty := queue_faultEntry s.linkCleared .linkClear .none none
    refine ⟨_, s.linkCleared.faultRecord .linkClear .none, exec_linkClear rest armed, ?_⟩
    rw [linkClears_eq, faults, if_pos rfl, raiseFault_unlatched still, close_emptied empty, State.cycle_flush,
      State.motion_flush, State.bed_flush, cycle_faultEntry, motion_faultEntry, bed_faultEntry]
    obtain ⟨r, w, owed⟩ := owedAtFault_only s.linkCleared none
    refine ⟨rfl, rfl, rfl, rfl, rfl, rfl, rfl, rfl, rfl, rfl, rfl, ?_, rfl, ?_⟩
    · rw [owed]
      rfl
    · unfold State.flush
      rw [link_faultEntry]
      show (LinkPort.outbound (List.foldl _ _ (s.link.formed ++ _))) = _
      rw [rest.2]
      rfl
  · show Host.Outcome.next (if s.link.armed then s.begin.linkClears.close else s.begin.close) = _
    rw [off, if_neg (by decide), begin_quiet rest.2, close_rest s rest]

/-! ### The line -/

/-- An event that changes the link port alone, between commands (R155, R158). -/
theorem close_link_begin {s : State} (rest : s.atRest) (f : LinkPort → LinkPort)
    (quiet : (f s.link).formed = s.link.formed) :
    (s.begin.withLink (f s.begin.link)).close = { s with link := f s.link } := by
  rw [begin_quiet rest.2]
  exact close_withLink rest (quiet.trans rest.2)

/-- What SET_LINK answers (R153). -/
theorem actSetLink_above {s : State} {code : Byte} (above : 3 < code.toNat) : actSetLink code s = s.answer .badArg :=
  dif_neg (by omega)

theorem actSetLink_rate {s : State} {code : Byte} {n : Fin 4} (named : code.toNat = n.val) : actSetLink code s =
    if s.link.rate = n then s.answer .noChange else { s.done with rate := some n } := by
  have below : code.toNat < 4 := named ▸ n.isLt
  have same : (⟨code.toNat, below⟩ : Fin 4) = n := Fin.ext named
  unfold actSetLink
  rw [dif_pos below, same]

/-- Settles O6. -/
theorem linkRateFollowsItsReply : Obligations.LinkRateFollowsItsReply := by
  refine ⟨fun s rest => ⟨?_, fun r later queue => ?_, fun empty => ?_⟩, fun s tag code ready =>
    ⟨fun above => ?_, fun held => ?_, fun n named other => ?_⟩⟩
  · exact congrArg _ (close_link_begin rest (fun l => { l with armed := true }) rfl)
  · have sent : s.link.sent = { s.link with outbound := later, rate := r.rate.getD s.link.rate } := by
      unfold LinkPort.sent
      rw [queue]
    have quiet : s.link.sent.formed = s.link.formed := by rw [sent]
    rw [← sent]
    exact congrArg _ (close_link_begin rest LinkPort.sent quiet)
  · have sent : s.link.sent = s.link := by
      unfold LinkPort.sent
      rw [empty]
    have closed := close_link_begin rest LinkPort.sent (by rw [sent])
    rw [sent] at closed
    exact congrArg _ closed
  · exact request_unchanged ready rfl (actSetLink_above above)
  · exact request_unchanged ready rfl ((actSetLink_rate held).trans (if_pos rfl))
  · have ⟨⟨settled, quiet⟩, _⟩ := ready
    exact request_answered ready rfl ((actSetLink_rate named).trans (if_neg (Ne.symm other))) settled quiet

end Sys2Proof.Machine

/-! The receiver, frames and requests read back; the take of a record; the queues' rooms; replies (R154 to R158, R162 to
R164). -/

namespace Sys2Proof.Machine

/-! ### The receiver -/

theorem receive_notStart {l : LinkPort} {b : Byte} {err : Bool} (hunting : l.receiver = .hunting)
    (other : b ≠ 0xA5 ∨ err = true) : l.receive b err = l := by
  unfold LinkPort.receive
  rw [hunting]
  have noStart : ¬(b = 0xA5 ∧ err = false) := by
    rintro ⟨start, clean⟩
    rcases other with h | h
    · exact h start
    · rw [clean] at h
      cases h
  exact if_neg noStart

theorem receive_start {l : LinkPort} (hunting : l.receiver = .hunting) :
    l.receive 0xA5 false = { l with receiver := .inFrame [] false } := by
  unfold LinkPort.receive
  rw [hunting]
  rfl

/-- A frame's LEN byte (R155). -/
theorem receive_len {l : LinkPort} {b : Byte} {err e : Bool} (inFrame : l.receiver = .inFrame [] e) :
    l.receive b err = if b.toNat < 4 ∨ 244 < b.toNat then
        ({ l with receiver := .hunting } : LinkPort).enter [] (some .framing)
      else { l with receiver := .inFrame [b] (e || err) } := by
  unfold LinkPort.receive
  rw [inFrame]
  have empty : bodyReceived [b] = [] := by
    show ([] : List Byte).take b.toNat = []
    exact List.take_nil
  refine ite_congr rfl (fun _ => ?_) fun short => ?_
  · exact congrArg (fun bytes => LinkPort.enter bytes (some .framing) { l with receiver := .hunting }) empty
  rw [not_or] at short
  have none : ¬ ([] : List Byte).length = b.toNat + 2 := by simp
  exact if_neg none

/-- A frame's byte that is not its last (R155). -/
theorem receive_more {l : LinkPort} {b len : Byte} {err e : Bool} {got : List Byte}
    (inFrame : l.receiver = .inFrame (len :: got) e) (least : 4 ≤ len.toNat) (most : len.toNat ≤ 244)
    (more : got.length + 1 < len.toNat + 2) :
    l.receive b err = { l with receiver := .inFrame (len :: got ++ [b]) (e || err) } := by
  unfold LinkPort.receive
  rw [inFrame]
  have long : ¬(len.toNat < 4 ∨ 244 < len.toNat) := by omega
  have notLast : ¬ (got ++ [b]).length = len.toNat + 2 := by
    rw [List.length_append, List.length_singleton]
    omega
  exact (if_neg long).trans (if_neg notLast)

theorem append_eq_iff_bytes (hi lo : Byte) (c : Half) :
    hi ++ lo = c ↔ [hi, lo] = [c.extractLsb' 8 8, c.extractLsb' 0 8] := by
  constructor
  · rintro rfl
    have high : (hi ++ lo).extractLsb' 8 8 = hi := by
      refine BitVec.eq_of_getLsbD_eq fun i below => ?_
      simp only [BitVec.getLsbD_extractLsb', BitVec.getLsbD_append]
      simp [below]
    have low : (hi ++ lo).extractLsb' 0 8 = lo := by
      refine BitVec.eq_of_getLsbD_eq fun i below => ?_
      simp only [BitVec.getLsbD_extractLsb', BitVec.getLsbD_append]
      simp [below]
    rw [high, low]
  · intro same
    obtain ⟨rfl, rfl⟩ : hi = c.extractLsb' 8 8 ∧ lo = c.extractLsb' 0 8 := by simpa using same
    exact halfOf_bytes c

/-- A frame's last byte (R155). -/
theorem receive_last {l : LinkPort} {b len hi : Byte} {err e : Bool} {body : List Byte}
    (inFrame : l.receiver = .inFrame (len :: (body ++ [hi])) e) (least : 4 ≤ len.toNat) (most : len.toNat ≤ 244)
    (whole : body.length = len.toNat) : l.receive b err = LinkPort.enter body
      (if (e || err) = true then some .framing
        else if hi ++ b = crc16 (len :: body) then none else some .check) { l with receiver := .hunting } := by
  have long : ¬(len.toNat < 4 ∨ 244 < len.toNat) := by omega
  have last : (body ++ [hi] ++ [b]).length = len.toNat + 2 := by simp [whole]
  have taken : (body ++ [hi] ++ [b]).take len.toNat = body := by
    rw [List.append_assoc, ← whole, List.take_left]
  have dropped : (body ++ [hi] ++ [b]).drop len.toNat = [hi, b] := by
    rw [List.append_assoc, ← whole, List.drop_left]
    rfl
  have mark : frameMark (len :: (body ++ [hi] ++ [b])) (e || err) = if (e || err) = true then some .framing
      else if hi ++ b = crc16 (len :: body) then none else some .check := by
    unfold frameMark
    dsimp only
    rw [taken, dropped]
    simp only [append_eq_iff_bytes]
  unfold LinkPort.receive
  rw [inFrame]
  refine ((if_neg long).trans (if_pos last)).trans ?_
  rw [← mark]
  unfold LinkPort.endFrame
  exact congrArg (fun bytes => LinkPort.enter bytes _ _) taken

theorem breakFrame_hunting {l : LinkPort} (hunting : l.receiver = .hunting) (d : Damage) : l.breakFrame d = l := by
  unfold LinkPort.breakFrame
  rw [hunting]

theorem breakFrame_inFrame {l : LinkPort} {bytes : List Byte} {e : Bool} (inFrame : l.receiver = .inFrame bytes e)
    (d : Damage) :
    l.breakFrame d = ({ l with receiver := .hunting } : LinkPort).enter (bodyReceived bytes) (some d) := by
  unfold LinkPort.breakFrame
  rw [inFrame]
  rfl

/-- Records that enter form no notice. -/
theorem formed_enter_eq (body : List Byte) (d : Option Damage) (l : LinkPort) : (l.enter body d).formed = l.formed := by
  unfold LinkPort.enter
  split <;> rfl

/-- Settles O7: each clause is one case of the receiver. -/
theorem receiverTakesBytes : Obligations.ReceiverTakesBytes := by
  have taken (s : State) (rest : s.atRest) (b : Byte) (err : Bool) {l : LinkPort} (made : s.link.receive b err = l)
      (quiet : l.formed = s.link.formed) : exec (.linkByteReceived b err) s = .next { s with link := l } := by
    subst made
    exact congrArg _ (close_link_begin rest (LinkPort.receive b err) quiet)
  have broken (s : State) (rest : s.atRest) (d : Damage) {l : LinkPort} (made : s.link.breakFrame d = l)
      (quiet : l.formed = s.link.formed) :
      (s.begin.withLink (s.begin.link.breakFrame d)).close = { s with link := l } := by
    subst made
    exact close_link_begin rest (LinkPort.breakFrame d) quiet
  refine ⟨fun s b err rest => ⟨fun hunting other => ?_, fun hunting start clean => ?_, fun e inFrame => ?_,
    fun len got e inFrame least most => ⟨fun more => ?_, fun body hi whole length => ?_⟩⟩,
    fun s rest => ⟨fun hunting => ?_, fun bytes e inFrame => ?_, rfl, fun len got => rfl⟩⟩
  · exact taken s rest b err (receive_notStart hunting other) rfl
  · subst start clean
    exact taken s rest _ _ (receive_start hunting) rfl
  · refine taken s rest b err (receive_len inFrame) ?_
    split
    · exact formed_enter_eq ..
    · rfl
  · exact taken s rest b err (receive_more inFrame least most more) rfl
  · subst whole
    exact taken s rest b err (receive_last inFrame least most length) (formed_enter_eq ..)
  · exact ⟨congrArg _ (broken s rest .truncated (breakFrame_hunting hunting _) rfl),
      congrArg _ (broken s rest .framing (breakFrame_hunting hunting _) rfl)⟩
  · exact ⟨congrArg _ (broken s rest .truncated (breakFrame_inFrame inFrame _) (formed_enter_eq ..)),
      congrArg _ (broken s rest .framing (breakFrame_inFrame inFrame _) (formed_enter_eq ..))⟩

/-! ### Frames -/

/-- Bytes that do not complete the frame are appended to it. -/
theorem receive_all_more (xs : List Byte) {l : LinkPort} {len : Byte} {got : List Byte}
    (inFrame : l.receiver = .inFrame (len :: got) false) (least : 4 ≤ len.toNat) (most : len.toNat ≤ 244)
    (more : got.length + xs.length < len.toNat + 2) :
    xs.foldl (fun m b => m.receive b false) l = { l with receiver := .inFrame (len :: (got ++ xs)) false } := by
  induction xs generalizing l got with
  | nil => rw [List.append_nil, ← inFrame, List.foldl_nil]
  | cons x xs ih =>
    rw [List.length_cons] at more
    rw [List.foldl_cons, receive_more inFrame least most (by omega),
      ih (got := got ++ [x]) rfl (by rw [List.length_append, List.length_singleton]; omega)]
    simp

theorem frameOf_eq (body : List Byte) : frameOf body = 0xA5 :: u8 body.length ::
    (body ++ [(crc16 (u8 body.length :: body)).extractLsb' 8 8] ++
      [(crc16 (u8 body.length :: body)).extractLsb' 0 8]) := by
  simp [frameOf]

/-- Settles O8: START, LEN, the body and the high CRC byte build the frame; the low CRC byte completes it unmarked. -/
theorem frameIsReceivedWhole : Obligations.FrameIsReceivedWhole := by
  intro l body hunting least most
  have len : (u8 body.length).toNat = body.length := by
    show body.length % 256 = _
    omega
  have long : ¬((u8 body.length).toNat < 4 ∨ 244 < (u8 body.length).toNat) := by
    rw [len]
    omega
  rw [frameOf_eq]
  generalize check : crc16 (u8 body.length :: body) = c
  rw [List.foldl_cons, receive_start hunting, List.foldl_cons, receive_len rfl, if_neg long, List.foldl_append,
    receive_all_more (body ++ [c.extractLsb' 8 8]) (len := u8 body.length) (got := []) rfl (by omega) (by omega)
      (by simp [len])]
  have last := receive_last
    (l := { l with receiver := .inFrame (u8 body.length :: (body ++ [c.extractLsb' 8 8])) false })
    (b := c.extractLsb' 0 8) (err := false) rfl (by omega) (by omega) len.symm
  have matching : c.extractLsb' 8 8 ++ c.extractLsb' 0 8 = crc16 (u8 body.length :: body) := by
    rw [check]
    exact halfOf_bytes c
  rw [if_pos matching] at last
  refine last.trans ?_
  have same : ({ l with receiver := .hunting } : LinkPort) = l := by rw [← hunting]
  rw [Bool.or_self, if_neg (by decide), same]

end Sys2Proof.Machine

/-! Requests read back, the take of a record, the queues' rooms, and replies (R154, R156 to R158, R162 to R164). -/

namespace Sys2Proof.Machine

/-! ### Requests read back -/

theorem toNat_ofNat_short {n most : Nat} (h : n ≤ most) (byte : most ≤ 255) : (BitVec.ofNat 8 n).toNat = n := by
  rw [BitVec.toNat_ofNat]
  omega

theorem parseOpenOutline_fields {tag slot tool flags order passes : Byte} {n bleed : Half} {label : List Byte}
    (short : label.length ≤ 12) : parseOpenOutline tag ([slot] ++ halfBytes n ++ halfBytes bleed ++
      [tool, flags, order, passes, BitVec.ofNat 8 label.length] ++ label) =
      .request (.openOutline tag slot n bleed tool flags order passes label) := by
  have len := toNat_ofNat_short short (by omega)
  refine (if_pos ⟨len.symm, len.symm ▸ short⟩).trans ?_
  rw [halfOf_bytes, halfOf_bytes]
  rfl

theorem parseSetPanel_fields {tag slot tool flags order passes : Byte} {bleed : Half} {label : List Byte}
    (short : label.length ≤ 12) : parseSetPanel tag ([slot] ++ halfBytes bleed ++
      [tool, flags, order, passes, BitVec.ofNat 8 label.length] ++ label) =
      .request (.setPanel tag slot bleed tool flags order passes label) := by
  have len := toNat_ofNat_short short (by omega)
  refine (if_pos ⟨len.symm, len.symm ▸ short⟩).trans ?_
  rw [halfOf_bytes]
  rfl

theorem parsePoints_fields {tag : Byte} {first : Half} {vertices : List RawVertex} (least : 1 ≤ vertices.length)
    (most : vertices.length ≤ 28) :
    parsePoints tag (halfBytes first ++ [BitVec.ofNat 8 vertices.length] ++ vertexBytes vertices) =
      .request (.points tag first vertices) := by
  have len := toNat_ofNat_short most (by omega)
  show (match vertexList (vertexBytes vertices) with
    | some vs => if vs.length = (BitVec.ofNat 8 vertices.length).toNat ∧ 1 ≤ (BitVec.ofNat 8 vertices.length).toNat ∧
        (BitVec.ofNat 8 vertices.length).toNat ≤ 28 then
          Parsed.request (.points tag (halfOf (first.extractLsb' 8 8) (first.extractLsb' 0 8)) vs)
        else .badLength
    | none => .badLength) = _
  rw [vertexList_vertexBytes, halfOf_bytes, len]
  exact if_pos ⟨rfl, least, most⟩

theorem parseCommit_fields {tag mode : Byte} {slots : List Byte}
    (allowed : (Instr.commit tag mode slots).wellFormed = true) :
    parseCommit tag ([mode, BitVec.ofNat 8 slots.length] ++ slots) = .request (.commit tag mode slots) := by
  change (if mode = 0 then slots.isEmpty else decide (slots.length ≤ 240)) = true at allowed
  by_cases all : mode = 0
  · rw [if_pos all] at allowed
    have none := List.isEmpty_iff.mp allowed
    exact (if_pos all).trans ((if_pos allowed).trans (by rw [none]))
  · rw [if_neg all] at allowed
    have len := toNat_ofNat_short (of_decide_eq_true allowed) (by omega)
    exact (if_neg all).trans (if_pos len.symm)

/-- Settles O9: the parser of each kind reads the fields that the record carries. -/
theorem requestsReadBack : Obligations.RequestsReadBack := by
  intro i body allowed record
  cases i
  case hardwareReset | linkClear | linkByteReceived | frameGapExpiry | shortBreak | recordTake | outboundRecordSent
    | watchExpiry | nestStep | settleExpiry | moveCompletion | markSensorReport | searchScanEnd | homeFullTravel
    | encoderStep | feedGuardExpiry | feedDriveDone | lineWireChange | filterExpiry | axisPositionReport
    | linkLineReturnHigh => cases record
  all_goals obtain rfl := Option.some.inj record
  case setParam tag p i v => exact congrArg (fun w => Parsed.request (.setParam tag p i w)) (wordOf_bytes v)
  case readTable tag t q start most =>
    exact congrArg (fun h => Parsed.request (.readTable tag t q h most)) (halfOf_bytes start)
  case watch tag item slot period =>
    exact congrArg (fun h => Parsed.request (.watch tag item slot h)) (halfOf_bytes period)
  case openOutline => exact parseOpenOutline_fields (of_decide_eq_true allowed)
  case setPanel => exact parseSetPanel_fields (of_decide_eq_true allowed)
  case points =>
    obtain ⟨least, most⟩ := Bool.and_eq_true_iff.mp allowed
    exact parsePoints_fields (of_decide_eq_true least) (of_decide_eq_true most)
  case commit => exact parseCommit_fields allowed
  case linkTest =>
    obtain ⟨least, most⟩ := Bool.and_eq_true_iff.mp allowed
    exact if_pos ⟨of_decide_eq_true least, of_decide_eq_true most⟩
  case place tag slot rotation x y =>
    exact congrArg₂ (fun x y => Parsed.request (.place tag slot rotation x y)) (wordOf_bytes x) (wordOf_bytes y)
  case jog tag x y => exact congrArg₂ (fun x y => Parsed.request (.jog tag x y)) (wordOf_bytes x) (wordOf_bytes y)
  case markSet tag row side x y =>
    exact congrArg₂ (fun x y => Parsed.request (.markSet tag row side x y)) (wordOf_bytes x) (wordOf_bytes y)
  case testCut tag tool size x y =>
    refine (congrArg₂ (fun x y => Parsed.request (.testCut tag tool _ x y)) (wordOf_bytes x) (wordOf_bytes y)).trans ?_
    rw [halfOf_bytes]
  all_goals rfl

/-! ### A request row and the take -/

/-- A command that a record can carry is a request row with its delivery (R157). -/
theorem exec_request {i : Instr} {body : List Byte} (record : requestBody i = some body) (s : State) :
    exec i s = request i (deliver i) s := by
  cases i
  case hardwareReset | linkClear | linkByteReceived | frameGapExpiry | shortBreak | recordTake | outboundRecordSent
    | watchExpiry | nestStep | settleExpiry | moveCompletion | markSensorReport | searchScanEnd | homeFullTravel
    | encoderStep | feedGuardExpiry | feedDriveDone | lineWireChange | filterExpiry | axisPositionReport
    | linkLineReturnHigh => cases record
  all_goals rfl

/-- A request taken between commands is its delivery, then the close. -/
theorem exec_delivers {i : Instr} {body : List Byte} {s : State} (allowed : i.wellFormed = true)
    (record : requestBody i = some body) (ready : s.ready) : exec i s = .next (deliver i s).close := by
  obtain ⟨⟨_, quiet⟩, room⟩ := ready
  rw [exec_request record, request_delivers room allowed, begin_quiet quiet]

theorem exec_recordTake {s : State} (rest : s.atRest) : exec .recordTake s = .next s.takes.close :=
  congrArg (fun u => Host.Outcome.next (State.takes u).close) (begin_quiet rest.2)

/-- The record of the overrun mark's notice (R164; log 9). -/
theorem linkErrorNotice_overrun (n : Nat) : linkErrorNotice 0 n [] = ⟨0x62, 0, [0, u8 n, 0, 0], none⟩ := rfl

/-- The state behind a take: the record gone from the inbound queue and its overrun mark reported (R157 step 1). -/
def State.taken (s : State) (mark : Option Nat) (rest : List InRecord) : State :=
  (s.withLink { s.link with inbound := rest }).reportOverrun mark

theorem takes_empty {s : State} (empty : s.link.inbound = []) : s.takes = s := by
  unfold State.takes
  rw [empty]

section
variable {s : State} {body : List Byte} {damage : Option Damage} {mark : Option Nat} {rest : List InRecord}
  (queue : s.link.inbound = ⟨body, damage, mark⟩ :: rest)
include queue

/-- A take waits for one free outbound place, or for two with a mark (R157). -/
theorem takes_waits (full : 24 < s.link.outbound.length + (if mark = none then 1 else 2)) : s.takes = s := by
  unfold State.takes
  rw [queue]
  refine if_neg ?_
  cases mark <;> exact Nat.not_le.mpr full

theorem takes_taken (room : s.link.outbound.length + (if mark = none then 1 else 2) ≤ 24) :
    s.takes = (s.withLink { s.link with inbound := rest }).takeRecord ⟨body, damage, mark⟩ := by
  unfold State.takes
  rw [queue]
  refine if_pos ?_
  cases mark <;> exact room

end

theorem taken_atRest {s : State} (rest : s.atRest) (mark : Option Nat) (later : List InRecord) :
    (s.taken mark later).atRest := by
  cases mark <;> exact rest

/-- The take of a damaged record queues LINK_ERROR under the room rule (R157 step 2). -/
theorem exec_recordTake_damaged {s : State} {body : List Byte} {d : Damage} {mark : Option Nat}
    {rest : List InRecord} (still : s.atRest) (queue : s.link.inbound = ⟨body, some d, mark⟩ :: rest)
    (room : s.link.outbound.length + (if mark = none then 1 else 2) ≤ 24) :
    exec .recordTake s = .next ((s.taken mark rest).queueNotice (linkErrorNotice d.code 0 body)) := by
  obtain ⟨settled, quiet⟩ := taken_atRest still mark rest
  rw [exec_recordTake still, takes_taken queue room, ← flush_emit quiet]
  exact congrArg Host.Outcome.next (close_settled (s := (s.taken mark rest).emit _) settled)

section
variable {s : State} {body : List Byte} {mark : Option Nat} {rest : List InRecord} (still : s.atRest)
  (queue : s.link.inbound = ⟨body, none, mark⟩ :: rest)
  (room : s.link.outbound.length + (if mark = none then 1 else 2) ≤ 24)
include still queue room

/-- The take of an undamaged record answers it (R157 steps 3 to 5). -/
theorem exec_recordTake_answers :
    exec .recordTake s = .next ((s.taken mark rest).answerRecord ⟨body, none, mark⟩).close := by
  rw [exec_recordTake still, takes_taken queue room]
  rfl

/-- A request that the record carries acts as its own row does. -/
theorem exec_recordTake_request {i : Instr} (allowed : i.wellFormed = true) (record : requestBody i = some body) :
    ∃ t, exec .recordTake s = .next t ∧ exec i (s.taken mark rest) = .next t := by
  have ready : (s.taken mark rest).ready := by
    refine ⟨taken_atRest still mark rest, ?_⟩
    cases mark with
    | none => exact Nat.lt_of_succ_le room
    | some n =>
      show (s.link.outbound ++ [_]).length < 24
      rw [List.length_append, List.length_singleton]
      exact Nat.lt_of_succ_le room
  refine ⟨_, exec_recordTake_answers still queue room, ?_⟩
  rw [exec_delivers allowed record ready, State.answerRecord, requestsReadBack i body allowed record]

/-- What no request kind or no allowed length is answered (R157 steps 3 and 4). -/
theorem exec_recordTake_refuses {kind tag : Byte} {payload : List Byte} (fields : body = kind :: tag :: payload) :
    (parseBody body = .unknownKind →
      exec .recordTake s = .next ((s.taken mark rest).queueReply kind tag .unknownKind [] none)) ∧
    (parseBody body = .badLength →
      exec .recordTake s = .next ((s.taken mark rest).queueReply kind tag .badLength [] none)) := by
  have answers := exec_recordTake_answers still queue room
  have at_rest (status : Status) : ((s.taken mark rest).queueReply kind tag status [] none).close =
      (s.taken mark rest).queueReply kind tag status [] none := close_rest _ (taken_atRest still mark rest)
  subst fields
  refine ⟨fun unknown => ?_, fun long => ?_⟩
  · rw [answers, State.answerRecord, unknown]
    exact congrArg _ (at_rest .unknownKind)
  · rw [answers, State.answerRecord, long]
    exact congrArg _ (at_rest .badLength)

end

/-- Settles O10: the take of the record in front, by its damage, its mark and what its body says. -/
theorem recordTakeDelivers : Obligations.RecordTakeDelivers := by
  refine ⟨fun s body rest ready queue => ?_, fun s still => ⟨fun empty => ?_, fun body damage mark rest queue =>
    ⟨fun full => ?_, fun d damaged unmarked room => ?_, fun d n damaged marked room => ?_,
      fun i n whole marked room allowed record => ?_, fun n kind tag payload whole marked room fields => ?_⟩⟩⟩
  · obtain ⟨still, room⟩ := ready
    have refuses {kind tag : Byte} {payload : List Byte} (fields : body = kind :: tag :: payload) :=
      exec_recordTake_refuses still queue room fields
    exact ⟨fun i allowed record => exec_recordTake_request still queue room allowed record,
      fun kind tag payload fields => (refuses fields).1, fun kind tag payload fields => (refuses fields).2⟩
  · rw [exec_recordTake still, takes_empty empty, close_rest s still]
  · rw [exec_recordTake still, takes_waits queue full, close_rest s still]
  · subst damaged unmarked
    exact exec_recordTake_damaged still queue room
  · subst damaged marked
    exact exec_recordTake_damaged still queue room
  · subst whole marked
    exact exec_recordTake_request still queue room allowed record
  · subst whole marked
    exact exec_recordTake_refuses still queue room fields

/-! ### The queues' rooms -/

/-- Settles O11. -/
theorem queueRoomRules : Obligations.QueueRoomRules := by
  refine ⟨fun l body damage => ⟨fun room => if_pos room, fun full least => ?_⟩, fun l n => ⟨rfl, rfl⟩,
    fun s i body still full record => ?_⟩
  · have most : min (l.overrun + 1) 255 = if l.overrun < 255 then l.overrun + 1 else 255 := by
      split <;> omega
    rw [← most]
    exact if_neg (Nat.not_lt.mpr full)
  · rw [exec_request record, request_waits full, begin_quiet still.2, State.waits, record]
    rfl

/-! ### Replies -/

/-- Settles O12. -/
theorem replyCarriesStatusAndDigest : Obligations.ReplyCarriesStatusAndDigest := by
  intro s kind tag status data rate
  have bits (a b c d e f : Bool) : let flags : Byte := u8 (bitAt 0 a + bitAt 1 b + bitAt 2 c + bitAt 3 d + bitAt 4 e +
      bitAt 5 f); flags.getLsbD 0 = a ∧ flags.getLsbD 1 = b ∧ flags.getLsbD 2 = c ∧ flags.getLsbD 3 = d ∧
      flags.getLsbD 4 = e ∧ flags.getLsbD 5 = f ∧ flags.getLsbD 6 = false ∧ flags.getLsbD 7 = false := by
    revert a b c d e f
    decide
  exact ⟨_, rfl, bits ..⟩

end Sys2Proof.Machine

/-! The fields of the records of chapter 10 read back, and IDENT, STATUS, GET_PARAM and WATCH (R165, R168 to R171). -/

namespace Sys2Proof.Machine

/-! ### A field of a record -/

/-- The number in `n` bytes from byte `k` on, most significant byte first (10-1). -/
def fieldOf (d : List Byte) (n k : Nat) : Nat := ((d.drop k).take n).foldl (fun a b => 256 * a + b.toNat) 0

section
variable {d : List Byte} {n k : Nat}

theorem fieldOf_eq {bytes : List Byte} (h : (d.drop k).take n = bytes) :
    fieldOf d n k = bytes.foldl (fun a b => 256 * a + b.toNat) 0 := by
  unfold fieldOf
  rw [h]

theorem field_byte {m : Nat} (h : (d.drop k).take 1 = [u8 m]) : fieldOf d 1 k = m % 256 := by
  rw [fieldOf_eq h]
  exact Nat.zero_add _

theorem field_small {m : Nat} (h : (d.drop k).take 1 = [u8 m]) (small : m < 256) : fieldOf d 1 k = m :=
  (field_byte h).trans (Nat.mod_eq_of_lt small)

theorem field_be16 {m : Nat} (h : (d.drop k).take 2 = be16 m) : fieldOf d 2 k = m % 65536 := by
  rw [fieldOf_eq h]
  show 256 * (256 * 0 + m / 256 % 256) + m % 256 = _
  omega

theorem field_be32 {m : Nat} (h : (d.drop k).take 4 = be32 m) : fieldOf d 4 k = m % 4294967296 := by
  rw [fieldOf_eq h]
  show 256 * (256 * (256 * (256 * 0 + m / 16777216 % 256) + m / 65536 % 256) + m / 256 % 256) + m % 256 = _
  omega

/-- A signed number in two's complement. -/
theorem field_be32i {z : Int} (h : (d.drop k).take 4 = be32i z) : (fieldOf d 4 k : Int) = z % 4294967296 := by
  rw [field_be32 h, BitVec.toNat_ofInt]
  omega

theorem field_zeros (h : (d.drop k).take n = List.replicate n 0) : fieldOf d n k = 0 := by
  have none : ∀ n, (List.replicate n (0 : Byte)).foldl (fun a b => 256 * a + b.toNat) 0 = 0 := by
    intro n
    induction n with
    | zero => rfl
    | succ n ih => exact ih
  rw [fieldOf_eq h, none]

/-- The parts of eight bytes that hold two numbers. -/
theorem halves_of_eight {a b : List Byte} (h : (d.drop k).take 8 = a ++ b) (four : a.length = 4) :
    (d.drop k).take 4 = a ∧ (d.drop (k + 4)).take 4 = b := by
  constructor
  · have front := congrArg (List.take 4) h
    rwa [List.take_take, ← four, List.take_left, four] at front
  · have back := congrArg (List.drop 4) h
    rwa [List.drop_take, List.drop_drop, ← four, List.drop_left, four] at back

theorem field_position {p : BedPos} (h : (d.drop k).take 8 = be32i p.x ++ be32i p.y) :
    (fieldOf d 4 k : Int) = p.x % 4294967296 ∧ (fieldOf d 4 (k + 4) : Int) = p.y % 4294967296 := by
  obtain ⟨x, y⟩ := halves_of_eight h rfl
  exact ⟨field_be32i x, field_be32i y⟩

theorem field_head {head : Option BedPos} (h : (d.drop k).take 8 = headBytes head) :
    (head = none → fieldOf d 8 k = 0) ∧ (∀ p, head = some p → (fieldOf d 4 k : Int) = p.x % 4294967296 ∧
      (fieldOf d 4 (k + 4) : Int) = p.y % 4294967296) := by
  refine ⟨fun absent => ?_, fun p present => ?_⟩
  · subst absent
    exact field_zeros h
  · subst present
    exact field_position h

theorem field_measured {m : Option Measured} (h : (d.drop k).take 8 = measuredBytes m) :
    (m = none → fieldOf d 8 k = 0) ∧ (∀ q, m = some q → (fieldOf d 4 k : Int) = q.pos.x % 4294967296 ∧
      (fieldOf d 4 (k + 4) : Int) = q.pos.y % 4294967296) := by
  refine ⟨fun absent => ?_, fun q present => ?_⟩
  · subst absent
    exact field_zeros h
  · subst present
    exact field_position h

theorem field_vertex {v : Option Vertex} (h : (d.drop k).take 8 = vertexField v) :
    (v = none → fieldOf d 8 k = 0) ∧ (∀ w, v = some w → fieldOf d 4 k = w.u % 4294967296 ∧
      fieldOf d 4 (k + 4) = w.v % 4294967296) := by
  refine ⟨fun absent => ?_, fun w present => ?_⟩
  · subst absent
    exact field_zeros h
  · subst present
    obtain ⟨u, v⟩ := halves_of_eight h rfl
    exact ⟨field_be32 u, field_be32 v⟩

end

/-- A list of eight is its eight elements. -/
theorem eight_of_length {l : List Byte} (h : l.length = 8) :
    ∃ a b c d e f g i, l = [a, b, c, d, e, f, g, i] := by
  match l, h with
  | [a, b, c, d, e, f, g, i], _ => exact ⟨a, b, c, d, e, f, g, i, rfl⟩

@[simp] theorem length_headBytes (head : Option BedPos) : (headBytes head).length = 8 := by cases head <;> rfl

@[simp] theorem length_measuredBytes (m : Option Measured) : (measuredBytes m).length = 8 := by cases m <;> rfl

@[simp] theorem length_vertexField (v : Option Vertex) : (vertexField v).length = 8 := by cases v <;> rfl

/-! ### Flag bytes -/

theorem flags_one (a : Bool) : bitAt 0 a % 256 = if a = true then 1 else 0 := by
  revert a
  decide

theorem flags_two (a b : Bool) :
    (bitAt 0 a + bitAt 1 b) % 256 = (if a = true then 1 else 0) + if b = true then 2 else 0 := by
  revert a b
  decide

theorem flags_three (a b c : Bool) : (bitAt 0 a + bitAt 1 b + bitAt 2 c) % 256 =
    (if a = true then 1 else 0) + (if b = true then 2 else 0) + if c = true then 4 else 0 := by
  revert a b c
  decide

theorem flags_five (a b c d e : Bool) : (bitAt 0 a + bitAt 1 b + bitAt 2 c + bitAt 3 d + bitAt 4 e) % 256 =
    (if a = true then 1 else 0) + (if b = true then 2 else 0) + (if c = true then 4 else 0) +
      (if d = true then 8 else 0) + if e = true then 16 else 0 := by
  revert a b c d e
  decide

theorem flags_six (a b c d e f : Bool) :
    (bitAt 0 a + bitAt 1 b + bitAt 2 c + bitAt 3 d + bitAt 4 e + bitAt 5 f) % 256 =
      (if a = true then 1 else 0) + (if b = true then 2 else 0) + (if c = true then 4 else 0) +
        (if d = true then 8 else 0) + (if e = true then 16 else 0) + if f = true then 32 else 0 := by
  revert a b c d e f
  decide

theorem code_reasons (r : Reasons) : r.code % 256 = (if r.request = true then 1 else 0) +
    (if r.step = true then 2 else 0) + if r.brk = true then 4 else 0 := flags_three ..

theorem code_tools (m : MotionUnit) :
    m.toolBits % 256 = (if m.kiss = .lowered then 1 else 0) + if m.thru = .lowered then 2 else 0 := by
  unfold MotionUnit.toolBits
  rw [flags_two]
  simp only [decide_eq_true_eq]

theorem code_phase (s : State) :
    s.phaseCode % 256 = if s.cycle.state = .measuring ∧ s.cycle.phase = .readying then 1 else 0 := by
  unfold State.phaseCode State.inReadying
  simp only [Bool.and_eq_true, decide_eq_true_eq]
  split <;> rfl

/-! ### Widths -/

theorem length_panelEntry {n : Nat} {p : Panel} (short : p.label.length ≤ 12) : (panelEntry n p).length = 54 := by
  have label : (padTo 12 p.label).length = 12 := by
    unfold padTo
    rw [List.length_append, List.length_replicate]
    omega
  unfold panelEntry
  cases p.bbox <;> cases p.placement <;> simp [label]

theorem length_bandEntry (mu : MarkUnit) (i : Nat) (g : Geometry) : (bandEntry mu i g).length = 12 := by
  unfold bandEntry
  cases mu.bandMarks i <;> cases g <;> rfl

theorem widths (s : State) (n : Nat) (p : Panel) (row : Nat) (side : Side) (m : Mark) (it : Item) (r : FaultRecord)
    (g : Geometry) :
    (p.label.length ≤ 12 → (panelEntry n p).length = 54) ∧ (markEntry s.nest.params row side m).length = 32 ∧
      (itemEntry n it).length = 34 ∧ (faultEntryBytes r).length = 28 ∧ (bandEntry s.marks n g).length = 12 ∧
      (statusData s).length = 42 ∧ (identData s).length = 66 ∧ (inputsEntry s.bed).length = 32 := by
  refine ⟨length_panelEntry, ?_, ?_, ?_, length_bandEntry .., ?_, rfl, rfl⟩
  · simp [markEntry]
  · simp [itemEntry]
  · simp [faultEntryBytes]
  · simp [statusData]

end Sys2Proof.Machine

/-! IDENT, STATUS, GET_PARAM, WATCH and the entries of the tables, field by field (R165, R168 to R171). -/

namespace Sys2Proof.Machine

/-! ### The entries -/

theorem fields_status (s : State) :
     let d := statusData s
     let field (n k : Nat) : Nat := ((d.drop k).take n).foldl (fun a b => 256 * a + b.toNat) 0
     let flag (b : Bool) (n : Nat) : Nat := if b = true then n else 0
     let reasons (r : Reasons) : Nat := flag r.request 1 + flag r.step 2 + flag r.brk 4
     field 1 0 = (match s.cycle.state with
       | .idle => 0 | .homing => 1 | .measuring => 2 | .cutting => 3 | .feeding => 4 | .suspended => 5 | .held => 6
       | .halted => 7 | .testcut => 8) ∧
     field 1 1 = (if s.cycle.state = .measuring ∧ s.cycle.phase = .readying then 1 else 0) ∧
     field 1 2 = (match s.cycle.hold with
       | none => 0 | some .markMissed => 1 | some .markGeometry => 2 | some .seamDeviation => 3 | some .planFull => 4
       | some .recover => 5) ∧
     field 1 3 = reasons s.cycle.reasons ∧
     (s.cycle.taken = none → field 1 4 = 0 ∧ field 1 5 = 0) ∧
     (∀ taken, s.cycle.taken = some taken → field 1 4 = reasons taken.reasons ∧
       field 1 5 = (match taken.resume with | .settle => 0 | .continue => 1 | .feed => 2)) ∧
     field 1 6 = flag s.cycle.stopPending 1 + flag s.cycle.runActive 2 + flag s.motion.head.isSome 4 ∧
     field 1 7 = s.cycle.pointer % 256 ∧ field 1 8 = s.windowCount % 256 ∧ field 1 9 = s.cycle.owed % 256 ∧
     (field 4 10 : Int) = s.cycle.remainder % 4294967296 ∧ field 1 14 = s.motion.queue.length % 256 ∧
     (s.motion.executing = false → field 1 15 = 255) ∧
     (∀ e rest, s.motion.executing = true → s.motion.queue = e :: rest → field 1 15 = (match e with
       | .travel _ _ => 0 | .cut _ _ _ => 1 | .search _ => 2 | .home => 3 | .feed _ => 4)) ∧
     (s.motion.head = none → field 8 16 = 0) ∧
     (∀ h, s.motion.head = some h → (field 4 16 : Int) = h.x % 4294967296 ∧ (field 4 20 : Int) = h.y % 4294967296) ∧
     field 1 24 = (if s.motion.kiss = .lowered then 1 else 0) + (if s.motion.thru = .lowered then 2 else 0) ∧
     field 1 25 = flag (s.bed.zones.get 0) 1 + flag (s.bed.zones.get 1) 2 + flag (s.bed.zones.get 2) 4 +
       flag (s.bed.zones.get 3) 8 + flag s.bed.feedDrive 16 + flag s.bed.beacon 32 ∧
     field 2 26 = s.bed.toolKiss.getD 0 % 65536 ∧ field 2 28 = s.bed.toolThru.getD 0 % 65536 ∧
     (field 4 30 : Int) = s.motion.encoder % 4294967296 ∧ field 1 34 = s.link.inbound.length % 256 ∧
     field 1 35 = s.link.outbound.length % 256 ∧ field 1 36 = s.link.overrun % 256 ∧
     field 1 37 = flag s.nest.run.isSome 1 ∧ field 2 38 = s.store.free.length % 65536 ∧
     field 1 40 = s.marks.rows.length % 256 ∧ field 1 41 = 0 := by
  obtain ⟨a, b, c, d, e, f, g, i, head⟩ := eight_of_length (length_headBytes s.motion.head)
  have whole := statusData.eq_1 s
  simp only [head, be16, be32, be32i, List.cons_append, List.nil_append] at whole
  rw [whole]
  intro d field flag reasons
  have position : (d.drop 16).take 8 = headBytes s.motion.head := head.symm
  refine ⟨(field_byte rfl).trans (by cases s.cycle.state <;> rfl), (field_byte rfl).trans (code_phase s),
    (field_byte rfl).trans (by rcases s.cycle.hold with _ | ⟨_ | _⟩ <;> rfl), (field_byte rfl).trans (code_reasons _),
    fun absent => ⟨?_, ?_⟩, fun taken present => ⟨?_, ?_⟩, (field_byte rfl).trans (flags_three ..), field_byte rfl,
    field_byte rfl, field_byte rfl, field_be32i rfl, field_byte rfl, fun idle => ?_, fun e rest busy queue => ?_,
    (field_head position).1, (field_head position).2, (field_byte rfl).trans (code_tools _),
    (field_byte rfl).trans (flags_six ..), field_be16 rfl, field_be16 rfl, field_be32i rfl, field_byte rfl,
    field_byte rfl, field_byte rfl, (field_byte rfl).trans (flags_one _), field_be16 rfl, field_byte rfl,
    field_zeros rfl⟩
  · exact (field_byte (m := (s.cycle.taken.map (·.reasons.code)).getD 0) rfl).trans (by rw [absent]; rfl)
  · exact (field_byte (m := (s.cycle.taken.map (·.resume.code)).getD 0) rfl).trans (by rw [absent]; rfl)
  · refine (field_byte (m := (s.cycle.taken.map (·.reasons.code)).getD 0) rfl).trans ?_
    rw [present]
    exact code_reasons taken.reasons
  · refine (field_byte (m := (s.cycle.taken.map (·.resume.code)).getD 0) rfl).trans ?_
    rw [present]
    show taken.resume.code % 256 = _
    cases taken.resume <;> rfl
  · have byte : (d.drop 15).take 1 = [u8 255] := by simp [d, executingEntry_of_idle idle, u8]
    exact field_byte byte
  · have entry : s.motion.executingEntry = some e := by rw [MotionUnit.executingEntry, busy, if_pos rfl, queue]; rfl
    have byte : (d.drop 15).take 1 = [u8 e.kind.code] := by simp [d, entry]
    exact (field_byte byte).trans (by cases e <;> rfl)

theorem fields_ident (s : State) :
     let d := identData s
     let field (n k : Nat) : Nat := ((d.drop k).take n).foldl (fun a b => 256 * a + b.toNat) 0
     field 2 0 = 0x4D4B ∧ field 2 2 = 0x0096 ∧ field 1 4 = 1 ∧ field 1 5 = 0 ∧ field 2 6 = 96 ∧ field 2 8 = 512 ∧
     field 2 10 = 32 ∧ field 2 12 = 3 ∧ field 2 14 = 4096 ∧ field 2 16 = 100 ∧ field 2 18 = 99 ∧ field 2 20 = 194 ∧
     field 2 22 = 256 ∧ field 2 24 = 32 ∧ field 2 26 = 8 ∧ field 2 28 = 24 ∧ field 2 30 = 4 ∧ field 2 32 = 4 ∧
     field 2 34 = 244 ∧ field 2 36 = 1 ∧ field 2 38 = 28 ∧ field 2 40 = 12 ∧ field 2 42 = 4 ∧ field 4 44 = 65000 ∧
     field 4 48 = 165000 ∧ field 4 52 = 260000 ∧ field 4 56 = 2000 ∧ field 4 60 = 10000 ∧
     field 2 64 = s.store.free.length % 65536 := by
  have whole : identData s = identData s := rfl
  conv at whole =>
    rhs
    delta identData
  simp only [be16, be32, List.cons_append, List.nil_append] at whole
  rw [whole]
  intro d field
  simp [field, d, u8, Config.blocks, Config.blockPlaces, Config.maxRows, Config.maxItems, Config.motionPlaces,
    Config.inboundPlaces, Config.outboundPlaces, Config.zoneLength, Config.bedX, Config.bedY, Config.edgeX,
    Config.originY]
  omega

/-- The lengths and the content of the bounding box field (R170). -/
def bboxField : Option BBox → List Byte
  | some b => be32 b.minU ++ be32 b.minV ++ be32 b.width ++ be32 b.height
  | none => List.replicate 16 0

/-- The placement field (R170). -/
def placementField : Option Placement → List Byte
  | some pl => be32 pl.x ++ be32 pl.y ++ [u8 pl.rotation.code]
  | none => List.replicate 9 0

/-- The first twelve bytes of a panel entry (R170). -/
def panelFront (slot : Nat) (p : Panel) : List Byte :=
  [u8 slot, u8 p.state.code, u8 p.lock.code,
    u8 (bitAt 0 p.bbox.isSome + bitAt 1 p.placement.isSome + bitAt 2 p.windowsLeft.isSome + bitAt 3 p.weed +
      bitAt 4 p.rotateOk),
    u8 p.tool.code, u8 p.order, u8 p.passes, u8 p.outcome.code] ++
  be16 p.bleed ++ be16 p.vertexCount

/-- The bytes of a panel entry behind its placement (R170). -/
def panelBack (p : Panel) : List Byte :=
  [u8 (p.windowsLeft.getD 0)] ++ be16 p.chain.length ++ [u8 p.label.length, 0] ++ padTo 12 p.label

theorem panelEntry_parts (slot : Nat) (p : Panel) :
    panelEntry slot p = panelFront slot p ++ (bboxField p.bbox ++ (placementField p.placement ++ panelBack p)) := by
  simp only [panelEntry, panelFront, panelBack, bboxField, placementField, List.append_assoc] <;> rfl

/-- A part of a part of a record. -/
theorem slice_sub {d x : List Byte} {k n i m : Nat} (h : (d.drop k).take n = x) (inside : i + m ≤ n) :
    (d.drop (k + i)).take m = (x.drop i).take m := by
  rw [← h, List.drop_take, List.drop_drop, List.take_take, Nat.min_eq_left (by omega)]

theorem slice_front {a b x : List Byte} {n k : Nat} (h : (a.drop k).take n = x) (inside : k + n ≤ a.length) :
    ((a ++ b).drop k).take n = x := by
  rw [List.drop_append_of_le_length (by omega), List.take_append_of_le_length (by rw [List.length_drop]; omega), h]

theorem slice_back {a b x : List Byte} {n k m : Nat} (length : a.length = m) (h : (b.drop k).take n = x) :
    ((a ++ b).drop (m + k)).take n = x := by
  rw [← length, List.drop_append, List.drop_eq_nil_of_le (by omega), List.nil_append, Nat.add_sub_cancel_left, h]

@[simp] theorem length_bboxField (b : Option BBox) : (bboxField b).length = 16 := by cases b <;> rfl

@[simp] theorem length_placementField (p : Option Placement) : (placementField p).length = 9 := by cases p <;> rfl

section
variable {slot : Nat} {p : Panel} {n k : Nat} {x : List Byte}

theorem panelEntry_front (h : ((panelFront slot p).drop k).take n = x) (inside : k + n ≤ 12) :
    ((panelEntry slot p).drop k).take n = x := by
  rw [panelEntry_parts]
  exact slice_front h inside

theorem panelEntry_bbox : ((panelEntry slot p).drop 12).take 16 = bboxField p.bbox := by
  rw [panelEntry_parts]
  exact slice_back (m := 12) (k := 0) rfl (slice_front (List.take_of_length_le (by simp)) (by simp))

theorem panelEntry_placement : ((panelEntry slot p).drop 28).take 9 = placementField p.placement := by
  rw [panelEntry_parts]
  exact slice_back (m := 12) (k := 16) rfl (slice_back (m := 16) (k := 0) (length_bboxField _)
    (slice_front (List.take_of_length_le (by simp)) (by simp)))

theorem panelEntry_back (h : ((panelBack p).drop k).take n = x) : ((panelEntry slot p).drop (37 + k)).take n = x := by
  have spot := slice_back (length_placementField p.placement) h
  have box := slice_back (m := 16) (length_bboxField p.bbox) spot
  have front := slice_back (a := panelFront slot p) (m := 12) rfl box
  rw [panelEntry_parts, show 37 + k = 12 + (16 + (9 + k)) by omega]
  exact front

end

theorem padTo_getElem? {l : List Byte} {n j : Nat} (below : j < n) (short : l.length ≤ n) :
    (padTo n l)[j]? = some (l.getD j 0) := by
  unfold padTo
  rw [List.getD_eq_getElem?_getD]
  by_cases inside : j < l.length
  · rw [List.getElem?_append_left inside, List.getElem?_eq_getElem inside]
    rfl
  · rw [List.getElem?_append_right (by omega), List.getElem?_replicate, if_pos (by omega),
      List.getElem?_eq_none (by omega)]
    rfl

theorem length_padTo {l : List Byte} {n : Nat} (short : l.length ≤ n) : (padTo n l).length = n := by
  unfold padTo
  rw [List.length_append, List.length_replicate]
  omega

/-- A byte within a part of a record. -/
theorem getElem?_slice {d x : List Byte} {k n j : Nat} (h : (d.drop k).take n = x) (inside : j < n) :
    d[k + j]? = x[j]? := by
  rw [← h, List.getElem?_take_of_lt inside, List.getElem?_drop]

theorem fields_panel (n : Nat) (p : Panel) :
     let d := panelEntry n p
     let field (n k : Nat) : Nat := ((d.drop k).take n).foldl (fun a b => 256 * a + b.toNat) 0
     let flag (b : Bool) (n : Nat) : Nat := if b = true then n else 0
     field 1 0 = n % 256 ∧
     field 1 1 = (match p.state with
       | .empty => 0 | .loading => 1 | .loaded => 2 | .placed => 3 | .cutting => 4 | .cut => 5 | .skipped => 6) ∧
     field 1 2 = (match p.lock with | .free => 0 | .pinned => 1 | .committed => 2) ∧
     field 1 3 = flag p.bbox.isSome 1 + flag p.placement.isSome 2 + flag p.windowsLeft.isSome 4 + flag p.weed 8 +
       flag p.rotateOk 16 ∧
     field 1 4 = (match p.tool with | .kiss => 0 | .thru => 1) ∧ field 1 5 = p.order % 256 ∧
     field 1 6 = p.passes % 256 ∧
     field 1 7 = (match p.outcome with | .none => 0 | .placed => 1 | .unfit => 2 | .noRoom => 3 | .fixed => 4) ∧
     field 2 8 = p.bleed % 65536 ∧ field 2 10 = p.vertexCount % 65536 ∧
     (p.bbox = none → field 16 12 = 0) ∧
     (∀ b, p.bbox = some b → field 4 12 = b.minU % 4294967296 ∧ field 4 16 = b.minV % 4294967296 ∧
       field 4 20 = b.width % 4294967296 ∧ field 4 24 = b.height % 4294967296) ∧
     (p.placement = none → field 9 28 = 0) ∧
     (∀ pl, p.placement = some pl → field 4 28 = pl.x % 4294967296 ∧ field 4 32 = pl.y % 4294967296 ∧
       field 1 36 = (match pl.rotation with | .r0 => 0 | .r90 => 90)) ∧
     field 1 37 = p.windowsLeft.getD 0 % 256 ∧ field 2 38 = p.chain.length % 65536 ∧
     field 1 40 = p.label.length % 256 ∧ field 1 41 = 0 ∧
     (∀ j, j < 12 → p.label.length ≤ 12 → d[42 + j]? = some (p.label.getD j 0)) := by
  intro d field flag
  have box := panelEntry_bbox (slot := n) (p := p)
  have spot := panelEntry_placement (slot := n) (p := p)
  refine ⟨field_byte (panelEntry_front rfl (by decide)),
    (field_byte (panelEntry_front rfl (by decide))).trans (by cases p.state <;> rfl),
    (field_byte (panelEntry_front rfl (by decide))).trans (by cases p.lock <;> rfl),
    (field_byte (panelEntry_front rfl (by decide))).trans (flags_five ..),
    (field_byte (panelEntry_front rfl (by decide))).trans (by cases p.tool <;> rfl),
    field_byte (panelEntry_front rfl (by decide)), field_byte (panelEntry_front rfl (by decide)),
    (field_byte (panelEntry_front rfl (by decide))).trans (by cases p.outcome <;> rfl),
    field_be16 (panelEntry_front rfl (by decide)), field_be16 (panelEntry_front rfl (by decide)),
    fun absent => ?_, fun b present => ?_, fun absent => ?_, fun pl present => ?_,
    field_byte (panelEntry_back (k := 0) rfl), field_be16 (panelEntry_back (k := 1) rfl),
    field_byte (panelEntry_back (k := 3) rfl), field_zeros (panelEntry_back (k := 4) rfl), fun j below short => ?_⟩
  · rw [absent] at box
    exact field_zeros box
  · rw [present] at box
    exact ⟨field_be32 (slice_sub (i := 0) box (by decide)), field_be32 (slice_sub (i := 4) box (by decide)),
      field_be32 (slice_sub (i := 8) box (by decide)), field_be32 (slice_sub (i := 12) box (by decide))⟩
  · rw [absent] at spot
    exact field_zeros spot
  · rw [present] at spot
    exact ⟨field_be32 (slice_sub (i := 0) spot (by decide)), field_be32 (slice_sub (i := 4) spot (by decide)),
      (field_byte (slice_sub (i := 8) spot (by decide))).trans (by cases pl.rotation <;> rfl)⟩
  · have label : (d.drop 42).take 12 = padTo 12 p.label :=
      panelEntry_back (k := 5) (List.take_of_length_le (length_padTo short).le)
    exact (getElem?_slice label below).trans (padTo_getElem? below short)

theorem fields_mark_item (lp : LayoutParams) (row : Nat) (side : Side) (m : Mark) (index : Nat) (it : Item) :
     let field (d : List Byte) (n k : Nat) : Nat := ((d.drop k).take n).foldl (fun a b => 256 * a + b.toNat) 0
     let flag (b : Bool) (n : Nat) : Nat := if b = true then n else 0
     let d := markEntry lp row side m
     let e := itemEntry index it
     let pos (k : Nat) (q : BedPos) : Prop :=
       (field d 4 k : Int) = q.x % 4294967296 ∧ (field d 4 (k + 4) : Int) = q.y % 4294967296
     let point (k : Nat) (v : Vertex) : Prop :=
       field e 4 k = v.u % 4294967296 ∧ field e 4 (k + 4) = v.v % 4294967296
     field d 1 0 = row % 256 ∧ field d 1 1 = (match side with | .left => 0 | .right => 1) ∧
     field d 1 2 = (match m.state with | .unread => 0 | .read => 1 | .missed => 2 | .set => 3) ∧
     field d 1 3 = flag m.measured.isSome 1 + flag m.previous.isSome 2 ∧ field d 1 4 = m.attempts % 256 ∧
     field d 1 7 = 0 ∧ field d 4 8 = (match side with | .left => lp.uLeft | .right => lp.uRight) % 4294967296 ∧
     field d 4 12 = (lp.lead + row * lp.markPitch) % 4294967296 ∧
     (m.measured = none → field d 1 5 = 0 ∧ field d 8 16 = 0) ∧
     (∀ q, m.measured = some q → field d 1 5 = q.window % 256 ∧ pos 16 q.pos) ∧
     (m.previous = none → field d 1 6 = 0 ∧ field d 8 24 = 0) ∧
     (∀ q, m.previous = some q → field d 1 6 = q.window % 256 ∧ pos 24 q.pos) ∧
     field e 2 0 = index % 65536 ∧ field e 1 2 = it.slot.val ∧
     field e 1 3 = (match it.kind with | .weed => 0 | .outline => 1) ∧
     field e 1 4 = (match it.tool with | .kiss => 0 | .thru => 1) ∧
     field e 1 5 = (match it.state with | .pending => 0 | .active => 1 | .done => 2 | .skipped => 3) ∧
     field e 1 6 = it.passes % 256 ∧ field e 1 7 = it.passDone % 256 ∧ field e 2 8 = it.segDone % 65536 ∧
     field e 2 10 = it.segments % 65536 ∧ field e 2 12 = it.first % 65536 ∧ field e 2 14 = it.last % 65536 ∧
     (it.entry = none → field e 8 16 = 0) ∧ (∀ v, it.entry = some v → point 16 v) ∧
     (it.exit = none → field e 8 24 = 0) ∧ (∀ v, it.exit = some v → point 24 v) ∧
     field e 1 32 = flag it.entry.isSome 1 + flag it.exit.isSome 2 ∧ field e 1 33 = 0 := by
  obtain ⟨m0, m1, m2, m3, m4, m5, m6, m7, now⟩ := eight_of_length (length_measuredBytes m.measured)
  obtain ⟨p0, p1, p2, p3, p4, p5, p6, p7, before⟩ := eight_of_length (length_measuredBytes m.previous)
  obtain ⟨a0, a1, a2, a3, a4, a5, a6, a7, entry⟩ := eight_of_length (length_vertexField it.entry)
  obtain ⟨b0, b1, b2, b3, b4, b5, b6, b7, leave⟩ := eight_of_length (length_vertexField it.exit)
  have mark := markEntry.eq_1 lp row side m
  have item := itemEntry.eq_1 index it
  simp only [now, before, be32, List.cons_append, List.nil_append] at mark
  simp only [entry, leave, be16, List.cons_append, List.nil_append] at item
  rw [mark, item]
  intro field flag d e pos point
  have measured : (d.drop 16).take 8 = measuredBytes m.measured := now.symm
  have previous : (d.drop 24).take 8 = measuredBytes m.previous := before.symm
  have first : (e.drop 16).take 8 = vertexField it.entry := entry.symm
  have last : (e.drop 24).take 8 = vertexField it.exit := leave.symm
  have window : field d 1 5 = (m.measured.map (·.window)).getD 0 % 256 := field_byte rfl
  have earlier : field d 1 6 = (m.previous.map (·.window)).getD 0 % 256 := field_byte rfl
  refine ⟨field_byte rfl, (field_byte rfl).trans (by cases side <;> rfl),
    (field_byte rfl).trans (by cases m.state <;> rfl), (field_byte rfl).trans (flags_two ..), field_byte rfl,
    field_zeros rfl, (field_be32 (m := lp.sideU side) rfl).trans (by cases side <;> rfl),
    field_be32 (m := lp.rowV row) rfl, fun absent => ⟨?_, (field_measured measured).1 absent⟩,
    fun q present => ⟨?_, (field_measured measured).2 q present⟩,
    fun absent => ⟨?_, (field_measured previous).1 absent⟩,
    fun q present => ⟨?_, (field_measured previous).2 q present⟩, field_be16 rfl,
    field_small rfl (by have := it.slot.isLt; omega), (field_byte rfl).trans (by cases it.kind <;> rfl),
    (field_byte rfl).trans (by cases it.tool <;> rfl), (field_byte rfl).trans (by cases it.state <;> rfl),
    field_byte rfl, field_byte rfl, field_be16 rfl, field_be16 rfl, field_be16 rfl, field_be16 rfl,
    (field_vertex first).1, (field_vertex first).2, (field_vertex last).1, (field_vertex last).2,
    (field_byte rfl).trans (flags_two ..), field_zeros rfl⟩
  · rw [window, absent]
    rfl
  · rw [window, present]
    rfl
  · rw [earlier, absent]
    rfl
  · rw [earlier, present]
    rfl

/-- The index and the geometry of a band entry (R171). -/
def bandFront (i : Nat) : Geometry → List Byte
  | .unchecked => [u8 i, 0, 0]
  | .ok => [u8 i, 1, 0]
  | .fail k _ => [u8 i, 2, u8 k.code]

/-- The states of the four marks of a band entry (R171). -/
def bandStates : Option (Mark × Mark × Mark × Mark) → List Byte
  | some (a, b, c, d) => [u8 a.state.code, u8 b.state.code, u8 c.state.code, u8 d.state.code]
  | none => [0, 0, 0, 0]

/-- The deviation of a band entry (R171). -/
def bandPpm : Geometry → List Byte
  | .fail _ ppm => be32 ppm
  | .unchecked => be32 0
  | .ok => be32 0

theorem bandEntry_parts (mu : MarkUnit) (i : Nat) (g : Geometry) : bandEntry mu i g =
    bandFront i g ++ (([u8 (bitAt 0 (mu.usable i))] : List Byte) ++ (bandStates (mu.bandMarks i) ++ bandPpm g)) := by
  simp only [bandEntry, bandFront, bandStates, bandPpm, List.append_assoc] <;> cases g <;> rfl

theorem fields_band (mu : MarkUnit) (i : Nat) (g : Geometry) :
    ((bandEntry mu i g).drop 0).take 3 = bandFront i g ∧
      ((bandEntry mu i g).drop 3).take 1 = [u8 (bitAt 0 (mu.usable i))] ∧
      ((bandEntry mu i g).drop 4).take 4 = bandStates (mu.bandMarks i) ∧
      ((bandEntry mu i g).drop 8).take 4 = bandPpm g := by
  have three : (bandFront i g).length = 3 := by cases g <;> rfl
  have four : (bandStates (mu.bandMarks i)).length = 4 := by cases mu.bandMarks i <;> rfl
  have deviation : (bandPpm g).length = 4 := by cases g <;> rfl
  rw [bandEntry_parts]
  refine ⟨slice_front (List.take_of_length_le three.le) three.ge, slice_back (k := 0) three rfl,
    slice_back (k := 1) three (slice_back (m := 1) (k := 0) rfl
      (slice_front (List.take_of_length_le four.le) four.ge)),
    slice_back (k := 5) three (slice_back (m := 1) (k := 4) rfl (slice_back (k := 0) four
      (List.take_of_length_le deviation.le)))⟩

theorem fields_fault_band (r : FaultRecord) (mu : MarkUnit) (i : Nat) (g : Geometry) :
     let field (d : List Byte) (n k : Nat) : Nat := ((d.drop k).take n).foldl (fun a b => 256 * a + b.toNat) 0
     let flag (b : Bool) (n : Nat) : Nat := if b = true then n else 0
     let kindCode (k : FaultKind) : Nat := match k with
       | .estop => 1 | .guard => 2 | .vacuumLost => 3 | .mediaSlip => 4 | .mediaEnd => 5 | .motionLimit => 6
       | .homeFail => 7 | .linkClear => 8
     let entryCode (k : EntryKind) : Nat := match k with
       | .travel => 0 | .cut => 1 | .search => 2 | .home => 3 | .feed => 4
     let d := faultEntryBytes r
     let b := bandEntry mu i g
     let details (code : Nat) (x y : Int) : Prop := field d 1 3 = code ∧ (field d 4 20 : Int) = x % 4294967296 ∧
       (field d 4 24 : Int) = y % 4294967296
     field d 1 0 = kindCode r.kind ∧ field d 1 1 = r.stateAtEntry.code ∧
     field d 1 2 = (match r.qualifier with
       | .none => 0
       | .hold h => holdCode (some h)
       | .resume p => (match p with | .settle => 0 | .continue => 1 | .feed => 2)
       | .testReturn st => st.code) ∧
     (match r.detail with
       | .none => details 0 0 0
       | .guard e => details (entryCode e) 0 0
       | .vacuum settle => details (flag settle 1) 0 0
       | .slip tolerance commanded count => details (flag tolerance 1) commanded count
       | .mediaEnd during commanded count => details (flag during 1) commanded count
       | .limit e target unhomed => details (entryCode e + flag unhomed 128) target.x target.y
       | .axis a => details (if a = .x then 0 else 1) 0 0) ∧
     field d 1 4 = r.window % 256 ∧ field d 1 5 = r.followOn % 256 ∧
     (r.lastFollowOn = none → field d 1 6 = 0) ∧ (∀ k, r.lastFollowOn = some k → field d 1 6 = kindCode k) ∧
     field d 1 7 = flag r.itemSlot.isSome 1 + flag r.head.isSome 2 ∧ field d 1 11 = 0 ∧
     (r.itemSlot = none → field d 3 8 = 0) ∧
     (∀ q, r.itemSlot = some q → field d 2 8 = q.1 % 65536 ∧ field d 1 10 = q.2.val) ∧
     (r.head = none → field d 8 12 = 0) ∧
     (∀ h, r.head = some h → (field d 4 12 : Int) = h.x % 4294967296 ∧ (field d 4 16 : Int) = h.y % 4294967296) ∧
     field b 1 0 = i % 256 ∧ field b 1 3 = flag (mu.usable i) 1 ∧
     (g = .unchecked → field b 2 1 = 0 ∧ field b 4 8 = 0) ∧ (g = .ok → field b 1 1 = 1 ∧ field b 1 2 = 0 ∧
       field b 4 8 = 0) ∧
     (∀ kind ppm, g = .fail kind ppm → field b 1 1 = 2 ∧ field b 4 8 = ppm % 4294967296 ∧
       field b 1 2 = (match kind with | .lowerWidth => 0 | .upperWidth => 1 | .leftHeight => 2 | .rightHeight => 3)) ∧
     (∀ x y, mu.rows[i]? = some x → mu.rows[i + 1]? = some y → field b 1 4 = x.left.state.code ∧
       field b 1 5 = x.right.state.code ∧ field b 1 6 = y.left.state.code ∧ field b 1 7 = y.right.state.code) := by
  obtain ⟨h0, h1, h2, h3, h4, h5, h6, h7, head⟩ := eight_of_length (length_headBytes r.head)
  obtain ⟨front, usable, states, ppm⟩ := fields_band mu i g
  have fault := faultEntryBytes.eq_1 r
  simp only [head, be16, be32, be32i, List.cons_append, List.nil_append] at fault
  rw [fault]
  intro field flag kindCode entryCode d b details
  have position : (d.drop 12).take 8 = headBytes r.head := head.symm
  have kind : ∀ k : FaultKind, k.code % 256 = kindCode k := fun k => by cases k <;> rfl
  have entry : ∀ k : EntryKind, k.code = entryCode k := fun k => by cases k <;> rfl
  have code : field d 1 3 = r.detail.code % 256 := field_byte rfl
  have detail : details (r.detail.code % 256) r.detail.ab.1 r.detail.ab.2 := ⟨code, field_be32i rfl, field_be32i rfl⟩
  have follow : field d 1 6 = (r.lastFollowOn.map FaultKind.code).getD 0 % 256 := field_byte rfl
  refine ⟨(field_byte rfl).trans (kind r.kind), (field_byte rfl).trans (by cases r.stateAtEntry <;> rfl),
    (field_byte (m := r.qualifier.code) rfl).trans ?_, ?_, field_byte rfl, field_byte rfl, fun absent => ?_,
    fun k present => ?_, (field_byte rfl).trans (flags_two ..), field_zeros rfl, fun absent => ?_,
    fun q present => ⟨?_, ?_⟩, (field_head position).1, (field_head position).2, ?_,
    (field_byte usable).trans (flags_one _), fun unchecked => ?_, fun ok => ?_, fun kind deviation failed => ?_,
    fun x y above below => ?_⟩
  · cases r.qualifier with
    | none => rfl
    | hold h => cases h <;> rfl
    | resume p => cases p <;> rfl
    | testReturn st => cases st <;> rfl
  · revert detail
    cases r.detail with
    | none => exact id
    | guard e => cases e <;> exact id
    | vacuum settle => cases settle <;> exact id
    | slip tolerance commanded count => cases tolerance <;> exact id
    | mediaEnd during commanded count => cases during <;> exact id
    | limit e target unhomed => cases e <;> cases unhomed <;> exact id
    | axis a => cases a <;> exact id
  · rw [follow, absent]
    rfl
  · rw [follow, present]
    exact kind k
  · have slot : (d.drop 8).take 3 = be16 ((r.itemSlot.map (·.1)).getD 0) ++ [u8 ((r.itemSlot.map (·.2.val)).getD 0)] :=
      rfl
    rw [absent] at slot
    exact field_zeros slot
  · refine (field_be16 (m := (r.itemSlot.map (·.1)).getD 0) rfl).trans ?_
    rw [present]
    rfl
  · refine (field_byte (m := (r.itemSlot.map (·.2.val)).getD 0) rfl).trans ?_
    rw [present]
    exact Nat.mod_eq_of_lt (by have := q.2.isLt; show q.2.val < 256; omega)
  · have index : ((bandFront i g).drop 0).take 1 = [u8 i] := by cases g <;> rfl
    exact field_byte ((slice_sub (i := 0) front (by decide)).trans index)
  · subst unchecked
    exact ⟨field_zeros (slice_sub (i := 1) front (by decide)), (field_be32 ppm).trans rfl⟩
  · subst ok
    exact ⟨(field_byte (m := 1) (slice_sub (i := 1) front (by decide))).trans rfl,
      field_zeros (slice_sub (i := 2) front (by decide)), (field_be32 ppm).trans rfl⟩
  · subst failed
    exact ⟨(field_byte (m := 2) (slice_sub (i := 1) front (by decide))).trans rfl, field_be32 ppm,
      (field_byte (slice_sub (i := 2) front (by decide))).trans (by cases kind <;> rfl)⟩
  · have marks : mu.bandMarks i = some (x.left, x.right, y.left, y.right) := by
      unfold MarkUnit.bandMarks
      rw [above, below]
    rw [marks] at states
    have code : ∀ m : MarkState, m.code < 256 := fun m => by cases m <;> decide
    exact ⟨field_small (slice_sub (i := 0) states (by decide)) (code _),
      field_small (slice_sub (i := 1) states (by decide)) (code _),
      field_small (slice_sub (i := 2) states (by decide)) (code _),
      field_small (slice_sub (i := 3) states (by decide)) (code _)⟩

/-! ### IDENT, STATUS and GET_PARAM -/

/-- Settles O14: the records field by field, and the three requests as their data. -/
theorem readsAndTheirWidths : Obligations.ReadsAndTheirWidths := by
  refine ⟨widths, fun s tag param index ready => ?_, fields_status, fields_ident, fields_panel, fields_mark_item,
    fields_fault_band⟩
  have ⟨⟨settled, quiet⟩, _⟩ := ready
  refine ⟨request_answered ready rfl (rfl : actIdent s = s.doneWith (identData s)) settled quiet,
    request_answered ready rfl (rfl : actStatus s = s.doneWith (statusData s)) settled quiet, ?_⟩
  cases value : s.paramValue param index with
  | none =>
    have act : actGetParam param index s = s.answer .badArg := by
      unfold actGetParam
      rw [value]
    exact request_unchanged ready rfl act
  | some v =>
    have act : actGetParam param index s = s.doneWith (be32 v) := by
      unfold actGetParam
      rw [value]
    exact request_answered ready rfl act settled quiet

/-! ### WATCH -/

theorem watchItemOf_code (w : WatchItem) {item : Byte} (named : w.code = item.toNat) : watchItemOf item = some w := by
  unfold watchItemOf
  rw [← named]
  cases w <;> rfl

theorem watchItemOf_above {item : Byte} (above : 4 < item.toNat) : watchItemOf item = none := by
  unfold watchItemOf
  split
  case h_6 => rfl
  all_goals omega

/-- A byte that names no other item than those of R168. -/
theorem watchItemOf_cases (item : Byte) : 4 < item.toNat ∨ ∃ w : WatchItem, w.code = item.toNat := by
  rcases Nat.lt_or_ge 4 item.toNat with above | h
  · exact .inl above
  · right
    interval_cases number : item.toNat
    · exact ⟨.off, rfl⟩
    · exact ⟨.position, rfl⟩
    · exact ⟨.cycle, rfl⟩
    · exact ⟨.queues, rfl⟩
    · exact ⟨.panel, rfl⟩

/-- What WATCH answers to a listed item (R168). -/
theorem actWatch_item {s : State} {w : WatchItem} {item slot : Byte} {period : Half} (named : w.code = item.toNat) :
    actWatch item slot period s =
      if w ≠ .off ∧ (period.toNat < 100 ∨ 10000 < period.toNat) then s.answer .badArg
      else if w = .panel ∧ 95 < slot.toNat then s.answer .badArg
      else (s.withLink { s.link with
        watch := ⟨w, slot, period.toNat⟩
        watchTimer := if w = .off then none else some period.toNat }).done := by
  unfold actWatch
  rw [watchItemOf_code w named]

theorem actWatch_refused {s : State} {item slot : Byte} {period : Half}
    (wrong : 4 < item.toNat ∨ (item ≠ 0 ∧ (period.toNat < 100 ∨ 10000 < period.toNat)) ∨
      (item = 4 ∧ 95 < slot.toNat)) : actWatch item slot period s = s.answer .badArg := by
  rcases watchItemOf_cases item with above | ⟨w, named⟩
  · unfold actWatch
    rw [watchItemOf_above above]
  · rw [actWatch_item named]
    rcases wrong with above | ⟨notOff, outside⟩ | ⟨panel, above⟩
    · cases w <;> simp only [WatchItem.code] at named <;> omega
    · refine if_pos ⟨?_, outside⟩
      rintro rfl
      exact notOff (BitVec.eq_of_toNat_eq named.symm)
    · have isPanel : w = .panel := by
        subst panel
        cases w with
        | panel => rfl
        | off | position | cycle | queues => cases named
      rw [if_pos (c := w = .panel ∧ _) ⟨isPanel, above⟩, ite_self]

theorem actWatch_watches {s : State} {w : WatchItem} {item slot : Byte} {period : Half} (named : w.code = item.toNat)
    (inside : w ≠ .off → 100 ≤ period.toNat ∧ period.toNat ≤ 10000) (known : w = .panel → slot.toNat ≤ 95) :
    actWatch item slot period s = (s.withLink { s.link with
      watch := ⟨w, slot, period.toNat⟩
      watchTimer := if w = .off then none else some period.toNat }).done := by
  rw [actWatch_item named, if_neg, if_neg]
  · rintro ⟨panel, above⟩
    have := known panel
    omega
  · rintro ⟨notOff, outside⟩
    have := inside notOff
    omega

/-- A period of the watch ends (R158, R168). -/
theorem watchExpires_running {s : State} (running : s.link.watchTimer.isSome = true) :
    s.watchExpires = { s with link := { s.link with
      outbound := if s.link.outbound.length + 5 ≤ 24 then s.link.outbound ++ [watchNotice s] else s.link.outbound
      dropped := s.link.dropped || decide (24 < s.link.outbound.length + 5)
      watchTimer := some s.link.watch.period } } := by
  unfold State.watchExpires
  rw [if_pos running]
  unfold LinkPort.queueWatch State.withLink
  by_cases room : s.link.outbound.length + 5 ≤ 24
  · rw [if_pos (show s.link.outbound.length + 5 ≤ Config.outboundPlaces from room), if_pos room,
      decide_eq_false (Nat.not_lt.mpr room), Bool.or_false]
  · rw [if_neg (show ¬ s.link.outbound.length + 5 ≤ Config.outboundPlaces from room), if_neg room,
      decide_eq_true (Nat.lt_of_not_le room), Bool.or_true]

theorem firstLiveFrom_none {items : List Item} (dead : ∀ a ∈ items, ¬(a.state = .pending ∨ a.state = .active))
    (k : Nat) : firstLiveFrom k items = none := by
  induction items generalizing k with
  | nil => rfl
  | cons a rest ih =>
    have notLive : ¬ a.live = true := by
      simpa [Item.live] using dead a (List.mem_cons_self ..)
    rw [firstLiveFrom, if_neg notLive, ih fun b within => dead b (List.mem_cons_of_mem _ within)]

theorem firstLiveFrom_some {items : List Item} {i : Nat} {it : Item} (here : items[i]? = some it)
    (live : it.state = .pending ∨ it.state = .active)
    (dead : ∀ a ∈ items.take i, ¬(a.state = .pending ∨ a.state = .active)) (k : Nat) :
    firstLiveFrom k items = some (k + i) := by
  induction items generalizing k i with
  | nil => cases here
  | cons a rest ih =>
    cases i with
    | zero =>
      obtain rfl : a = it := by simpa using here
      have isLive : a.live = true := by simpa [Item.live] using live
      rw [firstLiveFrom, if_pos isLive, Nat.add_zero]
    | succ i =>
      rw [List.getElem?_cons_succ] at here
      rw [List.take_succ_cons] at dead
      have notLive : ¬ a.live = true := by
        simpa [Item.live] using dead a (List.mem_cons_self ..)
      rw [firstLiveFrom, if_neg notLive, ih here (fun b within => dead b (List.mem_cons_of_mem _ within))]
      congr 1
      omega

theorem cursorItem_none {s : State} {w : Worklist} (plan : s.plan.worklist = some w)
    (dead : ∀ a ∈ w.items, ¬(a.state = .pending ∨ a.state = .active)) : s.cursorItem = none := by
  simp only [State.cursorItem, plan, Worklist.cursorItem, Worklist.cursorIndex, firstLiveFrom_none dead]

theorem cursorItem_some {s : State} {w : Worklist} {i : Nat} {it : Item} (plan : s.plan.worklist = some w)
    (here : w.items[i]? = some it) (live : it.state = .pending ∨ it.state = .active)
    (dead : ∀ a ∈ w.items.take i, ¬(a.state = .pending ∨ a.state = .active)) : s.cursorItem = some (i, it.slot) := by
  simp only [State.cursorItem, plan, Worklist.cursorItem, Worklist.cursorIndex, firstLiveFrom_some here live dead,
    Nat.zero_add, here, Option.map_some]

theorem fields_watch (s : State) :
     let d := watchContents s
     let item := s.link.watch.item
     let field (n k : Nat) : Nat := ((d.drop k).take n).foldl (fun a b => 256 * a + b.toNat) 0
     let flag (b : Bool) (n : Nat) : Nat := if b = true then n else 0
     (item = .off → d = []) ∧
     (item = .position → d.length = 10 ∧ field 1 0 = flag s.motion.homed 1 + flag s.motion.head.isSome 2 ∧
       field 1 1 = (if s.motion.kiss = .lowered then 1 else 0) + (if s.motion.thru = .lowered then 2 else 0) ∧
       (s.motion.head = none → field 8 2 = 0) ∧
       (∀ h, s.motion.head = some h → (field 4 2 : Int) = h.x % 4294967296 ∧
         (field 4 6 : Int) = h.y % 4294967296)) ∧
     (item = .cycle → d.length = 8 ∧ field 1 0 = s.cycle.state.code ∧
       field 1 1 = (if s.cycle.state = .measuring ∧ s.cycle.phase = .readying then 1 else 0) ∧
       field 1 2 = holdCode s.cycle.hold ∧ field 1 3 = s.cycle.pointer % 256 ∧ field 1 4 = s.windowCount % 256 ∧
       (s.plan.worklist = none → field 1 5 = 0 ∧ field 2 6 = 0) ∧
       (∀ w, s.plan.worklist = some w → (∀ a ∈ w.items, ¬ (a.state = .pending ∨ a.state = .active)) →
         field 1 5 = 0 ∧ field 2 6 = 0) ∧
       (∀ w i it, s.plan.worklist = some w → w.items[i]? = some it → (it.state = .pending ∨ it.state = .active) →
         (∀ a ∈ w.items.take i, ¬ (a.state = .pending ∨ a.state = .active)) →
         field 1 5 = 1 ∧ field 2 6 = i % 65536)) ∧
     (item = .queues → d.length = 8 ∧ field 1 0 = s.link.inbound.length % 256 ∧
       field 1 1 = s.link.outbound.length % 256 ∧ field 1 2 = s.motion.queue.length % 256 ∧ field 1 3 = 0 ∧
       (s.plan.worklist = none → field 2 4 = 0) ∧
       (∀ w, s.plan.worklist = some w → field 2 4 = w.items.length % 65536) ∧
       field 2 6 = s.store.free.length % 65536) ∧
     (item = .panel → ∀ i : Slot, s.link.watch.slot.toNat = i.val → d = panelEntry i.val (s.panel i)) := by
  intro d item field flag
  refine ⟨fun off => ?_, fun position => ?_, fun cycle => ?_, fun queues => ?_, fun panel i named => ?_⟩
  · show watchContents s = []
    rw [watchContents, show s.link.watch.item = .off from off]
  · have whole : d = [u8 (bitAt 0 s.motion.homed + bitAt 1 s.motion.head.isSome), u8 s.motion.toolBits] ++
        headBytes s.motion.head := by
      unfold d
      rw [watchContents, show s.link.watch.item = .position from position]
    have slice {n k : Nat} : (d.drop k).take n = (([u8 (bitAt 0 s.motion.homed + bitAt 1 s.motion.head.isSome),
        u8 s.motion.toolBits] ++ headBytes s.motion.head).drop k).take n := by rw [whole]
    have head : (d.drop 2).take 8 = headBytes s.motion.head :=
      slice.trans (List.take_of_length_le (length_headBytes _).le)
    refine ⟨?_, (field_byte (slice.trans rfl)).trans (flags_two ..),
      (field_byte (slice.trans rfl)).trans (code_tools _),
      (field_head head).1, (field_head head).2⟩
    rw [whole, List.length_append, length_headBytes]
    rfl
  · have whole : d = [u8 s.cycle.state.code, u8 s.phaseCode, u8 (holdCode s.cycle.hold),
        u8 s.cycle.pointer, u8 s.windowCount, u8 (bitAt 0 s.cursorItem.isSome)] ++
        be16 ((s.cursorItem.map (·.1)).getD 0) := by
      unfold d
      rw [watchContents, show s.link.watch.item = .cycle from cycle]
    have slice {n k : Nat} : (d.drop k).take n = (([u8 s.cycle.state.code, u8 s.phaseCode, u8 (holdCode s.cycle.hold),
        u8 s.cycle.pointer, u8 s.windowCount, u8 (bitAt 0 s.cursorItem.isSome)] ++
        be16 ((s.cursorItem.map (·.1)).getD 0)).drop k).take n := by rw [whole]
    have cursor {o : Option (Nat × Slot)} (stands : s.cursorItem = o) :
        field 1 5 = bitAt 0 o.isSome % 256 ∧ field 2 6 = (o.map (·.1)).getD 0 % 65536 := by
      subst stands
      exact ⟨field_byte (slice.trans rfl), field_be16 (slice.trans rfl)⟩
    refine ⟨by rw [whole]; rfl, (field_byte (slice.trans rfl)).trans (by cases s.cycle.state <;> rfl),
      (field_byte (slice.trans rfl)).trans (code_phase s),
      (field_byte (slice.trans rfl)).trans (by rcases s.cycle.hold with _ | ⟨_ | _⟩ <;> rfl),
      field_byte (slice.trans rfl), field_byte (slice.trans rfl), fun absent => ?_, fun w plan dead => ?_,
      fun w i it plan here live dead => ?_⟩
    · have none : s.cursorItem = none := by simp only [State.cursorItem, absent]
      exact cursor none
    · exact cursor (cursorItem_none plan dead)
    · exact cursor (cursorItem_some plan here live dead)
  · have whole : d = [u8 s.link.inbound.length, u8 s.link.outbound.length, u8 s.motion.queue.length, 0] ++
        be16 s.itemCount ++ be16 s.store.free.length := by
      unfold d
      rw [watchContents, show s.link.watch.item = .queues from queues]
    have slice {n k : Nat} : (d.drop k).take n = (([u8 s.link.inbound.length, u8 s.link.outbound.length,
        u8 s.motion.queue.length, 0] ++ be16 s.itemCount ++ be16 s.store.free.length).drop k).take n := by rw [whole]
    have items : field 2 4 = s.itemCount % 65536 := field_be16 (slice.trans rfl)
    refine ⟨by rw [whole]; rfl, field_byte (slice.trans rfl), field_byte (slice.trans rfl),
      field_byte (slice.trans rfl), field_zeros (slice.trans rfl), fun absent => ?_, fun w plan => ?_,
      field_be16 (slice.trans rfl)⟩
    · rw [items, State.itemCount, absent]
      rfl
    · rw [items, State.itemCount, plan]
  · unfold d
    rw [watchContents, show s.link.watch.item = .panel from panel, slotOf_eq_some named]
    rfl

/-- Settles O16. -/
theorem watchAndItsTimer : Obligations.WatchAndItsTimer := by
  refine ⟨fun s => ⟨fun tag item slot period ready => ⟨fun wrong => ?_, fun w named inside known => ?_⟩,
    fun rest stopped => ?_, fun rest running => ?_⟩, fields_watch⟩
  · exact request_unchanged ready rfl (actWatch_refused wrong)
  · have ⟨⟨settled, quiet⟩, _⟩ := ready
    exact request_answered ready rfl (actWatch_watches named inside known) settled quiet
  · have still : s.watchExpires = s := by
      unfold State.watchExpires
      rw [stopped]
      rfl
    show Host.Outcome.next s.begin.watchExpires.close = _
    rw [begin_quiet rest.2, still, close_rest s rest]
  · show Host.Outcome.next s.begin.watchExpires.close = _
    rw [begin_quiet rest.2, watchExpires_running running]
    exact congrArg Host.Outcome.next (close_rest _ ⟨rest.1, rest.2⟩)

end Sys2Proof.Machine

/-! READ_TABLE and READ_NEXT (R135, R166, R167). -/

namespace Sys2Proof.Machine

/-! ### A piece of a table -/

/-- The number of entries a piece returns while its table has not ended (R166). -/
def State.piece (s : State) (c : TableCursor) (max : Nat) : Nat :=
  min (min max (234 / c.entryWidth)) (s.tableSize c - c.index)

theorem pieceCount_more {s : State} {c : TableCursor} (more : c.ended = false) (max : Nat) :
    s.pieceCount c max = s.piece c max := by
  unfold State.pieceCount
  rw [more]
  rfl

theorem pieceEnds_more {s : State} {c : TableCursor} (more : c.ended = false) (max : Nat) :
    s.pieceEnds c max = decide (s.tableSize c ≤ c.index + s.piece c max) := by
  unfold State.pieceEnds
  rw [more, pieceCount_more more]
  rfl

/-- A piece of a table that does not hold the INPUTS entry: the cursor moves and nothing else changes (R166). -/
theorem readPiece_more {s : State} {c : TableCursor} (more : c.ended = false)
    (noInputs : c.table = .inputs → 1 ≤ c.index) (max : Nat) : s.readPiece c max =
      (s.withLink { s.link with cursor := some { c with
        index := c.index + s.piece c max, ended := decide (s.tableSize c ≤ c.index + s.piece c max) } }).doneWith
        (readHeader c.table.code c.qualifier c.index (s.piece c max)
            (decide (s.tableSize c ≤ c.index + s.piece c max)) ++
          (List.range (s.piece c max)).flatMap fun d => s.tableEntry c (c.index + d)) := by
  have kept : ¬(c.table = .inputs ∧ 0 < s.piece c max) := by
    rintro ⟨inputs, some⟩
    have size : s.tableSize c = 1 := by
      unfold State.tableSize
      rw [inputs]
    have index := noInputs inputs
    unfold State.piece at some
    omega
  unfold State.readPiece State.pieceData
  simp only [pieceCount_more more, pieceEnds_more more, if_neg kept]

/-- Behind the END of its table a READ_NEXT returns no entry and END, and the cursor stays (R166). -/
theorem readPiece_ended {s : State} {c : TableCursor} (ended : c.ended = true) (stands : s.link.cursor = some c)
    (max : Nat) : s.readPiece c max = s.doneWith ([u8 c.table.code, u8 c.qualifier] ++ be16 c.index ++ [0x80]) := by
  have count : s.pieceCount c max = 0 := by
    unfold State.pieceCount
    rw [ended]
    rfl
  have ends : s.pieceEnds c max = true := by
    unfold State.pieceEnds
    rw [ended]
    rfl
  have cursor : ({ c with index := c.index + 0, ended := true } : TableCursor) = c := by
    rw [← ended]
    rfl
  have link : ({ s.link with cursor := some c } : LinkPort) = s.link := by rw [← stands]
  unfold State.readPiece State.pieceData
  simp only [count, ends, Nat.lt_irrefl, and_false, if_false, cursor, link]
  rfl

theorem ended_cursorOf {table qualifier : Byte} {start : Half} {c : TableCursor}
    (named : cursorOf table qualifier start = some c) : c.ended = false := by
  unfold cursorOf at named
  split at named
  · cases named
  · split at named
    · cases named
      rfl
    · split at named
      · cases named
        rfl
      · cases named
  · split at named
    · cases named
      rfl
    · cases named

theorem actReadTable_refused {s : State} {table qualifier max : Byte} {start : Half}
    (wrong : max = 0 ∨ cursorOf table qualifier start = none) :
    actReadTable table qualifier start max s = s.answer .badArg := by
  unfold actReadTable
  rcases wrong with zero | unknown
  · rw [if_pos zero]
  · rw [unknown]
    exact ite_self _

theorem actReadTable_reads {s : State} {table qualifier max : Byte} {start : Half} {c : TableCursor} (asked : max ≠ 0)
    (named : cursorOf table qualifier start = some c) :
    actReadTable table qualifier start max s = s.readPiece c max.toNat := by
  unfold actReadTable
  rw [if_neg asked, named]

theorem actReadNext_reads {s : State} {max : Byte} {c : TableCursor} (asked : max ≠ 0)
    (stands : s.link.cursor = some c) : actReadNext max s = s.readPiece c max.toNat := by
  unfold actReadNext
  rw [if_neg asked, stands]

theorem actReadNext_noCursor {s : State} {max : Byte} (asked : max ≠ 0) (none : s.link.cursor = none) :
    actReadNext max s = s.doneWith [0, 0, 0, 0, 0x80] := by
  unfold actReadNext
  rw [if_neg asked, none]
  rfl

/-- The change set emptied and the cursor behind the INPUTS entry (R135). -/
def State.inputsRead (s : State) : State :=
  s.emptyChanges.withLink { s.link with cursor := some ⟨.inputs, 0, 0, 1, true⟩ }

/-- READ_TABLE(INPUTS) returns its one entry and empties the change set (R135). -/
theorem readPiece_inputs {s : State} {max : Byte} (asked : max ≠ 0) :
    s.readPiece ⟨.inputs, 0, 0, 0, false⟩ max.toNat =
      s.inputsRead.doneWith ([5, 0, 0, 0, 0x81] ++ inputsEntry s.bed) := by
  have positive : 0 < max.toNat := by
    rw [Nat.pos_iff_ne_zero]
    exact fun zero => asked (BitVec.eq_of_toNat_eq zero)
  have count : s.pieceCount ⟨.inputs, 0, 0, 0, false⟩ max.toNat = 1 := by
    show min (min max.toNat 7) 1 = 1
    omega
  have ends : s.pieceEnds ⟨.inputs, 0, 0, 0, false⟩ max.toNat = true := by
    unfold State.pieceEnds
    rw [count]
    rfl
  unfold State.readPiece State.pieceData
  simp only [count, ends]
  rfl

/-- Settles O15. -/
theorem tableReads : Obligations.TableReads := by
  refine ⟨fun s tag max ready => ⟨fun table qualifier start wrong => ?_,
    fun table qualifier start c asked named noInputs => ?_, fun zero => ?_, fun asked none => ?_,
    fun c asked stands ended => ?_, fun c asked stands more noInputs => ?_⟩,
    fun s tag max ready asked => ⟨?_, fun stands => ?_⟩⟩
  all_goals have ⟨⟨settled, quiet⟩, _⟩ := ready
  · exact request_unchanged ready rfl (actReadTable_refused wrong)
  · have act := (actReadTable_reads (s := s) asked named).trans
      (readPiece_more (ended_cursorOf named) noInputs max.toNat)
    exact request_answered ready rfl act settled quiet
  · exact request_unchanged ready rfl (if_pos zero)
  · exact request_answered ready rfl (actReadNext_noCursor asked none) settled quiet
  · exact request_answered ready rfl ((actReadNext_reads asked stands).trans (readPiece_ended ended stands _)) settled
      quiet
  · have act := (actReadNext_reads asked stands).trans (readPiece_more more noInputs max.toNat)
    exact request_answered ready rfl act settled quiet
  · have named : cursorOf 5 0 0 = some ⟨.inputs, 0, 0, 0, false⟩ := rfl
    refine ⟨s.inputsRead, ?_, rfl, rfl, fun i => Table.get_map .., rfl⟩
    exact request_answered ready rfl ((actReadTable_reads asked named).trans (readPiece_inputs asked)) settled quiet
  · have act := (actReadNext_reads asked stands).trans (readPiece_ended rfl stands _)
    exact request_answered ready rfl act settled quiet

end Sys2Proof.Machine

/-! SET_PARAM (R24, R54, R73, R93, R122, R132, R133, R143, R165). -/

namespace Sys2Proof.Machine

/-! ### A parameter's value -/

/-- A four-byte number written as its bytes. -/
theorem be32_toNat (w : Word) : be32 w.toNat = wordBytes w := by
  have byte (k : Nat) : u8 (w.toNat / 2 ^ k) = w.extractLsb' k 8 := by
    apply BitVec.eq_of_toNat_eq
    rw [BitVec.extractLsb'_toNat, Nat.shiftRight_eq_div_pow]
    exact BitVec.toNat_ofNat ..
  have last := byte 0
  rw [Nat.pow_zero, Nat.div_one] at last
  unfold be32 wordBytes
  rw [← byte 24, ← byte 16, ← byte 8, ← last]
  rfl

theorem be32i_toInt (w : Word) : be32i w.toInt = wordBytes w := by
  rw [be32i, BitVec.ofInt_toInt, be32_toNat]

theorem toNat_toInt {w : Word} (h : 0 ≤ w.toInt) : w.toInt.toNat = w.toNat := by
  rw [BitVec.toInt_eq_toNat_cond] at h ⊢
  split at h <;> rename_i half
  · rw [if_pos half]
    rfl
  · omega

theorem byte_of_toNat {b : Byte} {n : Nat} (h : b.toNat = n) : b = BitVec.ofNat 8 n := by
  rw [← h, BitVec.ofNat_toNat, BitVec.setWidth_eq]

section
variable {s : State} {lo hi held : Nat} {v : Int} {write : Nat → State}

theorem writeRange_outside (outside : v < lo ∨ hi < v) : writeRange lo hi held v write s = s.answer .badArg :=
  if_pos outside

theorem writeRange_held (least : lo ≤ v) (most : v ≤ hi) (same : v = held) :
    writeRange lo hi held v write s = s.answer .noChange :=
  (if_neg (by omega)).trans (if_pos same)

theorem writeRange_writes (least : lo ≤ v) (most : v ≤ hi) (other : v ≠ held) :
    writeRange lo hi held v write s = (write v.toNat).doneWith (be32i v) :=
  (if_neg (by omega)).trans (if_neg other)

end

theorem actSetParam_listed {s : State} {code index : Byte} {value : Word} {held : Nat}
    (listed : s.paramValue code index = some held) :
    actSetParam code index value s = s.writeParam code index value.toInt := by
  unfold actSetParam
  rw [listed]

theorem actSetParam_unlisted {s : State} {code index : Byte} {value : Word}
    (unlisted : s.paramValue code index = none) : actSetParam code index value s = s.answer .badArg := by
  unfold actSetParam
  rw [unlisted]

/-! ### The parameters whose owner checks the range alone -/

/-- The parameter `code` is held, checked and written by an owner that checks its range alone; `write` writes it. -/
structure RangeOwned (s : State) (code : Byte) (lo hi held : Nat) (write : Nat → State) : Prop where
  value : s.paramValue code 0 = some held
  answer : ∀ v : Int, s.writeParam code 0 v = writeRange lo hi held v write s
  written : ∀ n, (write n).paramValue code 0 = some n
  others : ∀ n other index, other ≠ code ∨ index ≠ 0 →
    (write n).paramValue other index = s.paramValue other index
  link : ∀ n, (write n).link = s.link
  queue : ∀ n, (write n).motionSettled = s.motionSettled
  rest : ∀ n, write n = { s with
    plan := { s.plan with
      weedDistance := (write n).plan.weedDistance, kissPasses := (write n).plan.kissPasses,
      thruPasses := (write n).plan.thruPasses }
    marks := { s.marks with
      searchSize := (write n).marks.searchSize, geomTol := (write n).marks.geomTol,
      seamTol := (write n).marks.seamTol }
    cycle := { s.cycle with vacSettle := (write n).cycle.vacSettle }
    motion := { s.motion with params := (write n).motion.params } }

/-- Two states that hold the same value for every code but one. -/
theorem paramValue_others {s t : State} {code other index : Byte} (apart : other ≠ code ∨ index ≠ 0)
    (bed : t.bed = s.bed) (same : ∀ b : Byte, b ≠ code → t.paramValue b 0 = s.paramValue b 0) :
    t.paramValue other index = s.paramValue other index := by
  by_cases zero : index = 0
  · subst zero
    exact same other (apart.resolve_right fun h => h rfl)
  · unfold State.paramValue
    rw [bed]
    simp only [zero, ne_eq, not_false_eq_true, if_true]

theorem rangeOwned (s : State) {code : Byte} {lo hi : Nat} (row : (code, lo, hi) ∈ rangeParams) :
    ∃ held write, RangeOwned s code lo hi held write := by
  simp only [rangeParams, List.mem_cons, List.not_mem_nil, or_false, Prod.mk.injEq] at row
  rcases row with ⟨rfl, rfl, rfl⟩ | ⟨rfl, rfl, rfl⟩ | ⟨rfl, rfl, rfl⟩ | ⟨rfl, rfl, rfl⟩ | ⟨rfl, rfl, rfl⟩ |
    ⟨rfl, rfl, rfl⟩ | ⟨rfl, rfl, rfl⟩ | ⟨rfl, rfl, rfl⟩ | ⟨rfl, rfl, rfl⟩ | ⟨rfl, rfl, rfl⟩ | ⟨rfl, rfl, rfl⟩ |
    ⟨rfl, rfl, rfl⟩ | ⟨rfl, rfl, rfl⟩ | ⟨rfl, rfl, rfl⟩
  on_goal 1 => refine ⟨s.plan.weedDistance, fun n => s.withPlan { s.plan with weedDistance := n }, ?_⟩
  on_goal 2 => refine ⟨s.plan.kissPasses, fun n => s.withPlan { s.plan with kissPasses := n }, ?_⟩
  on_goal 3 => refine ⟨s.plan.thruPasses, fun n => s.withPlan { s.plan with thruPasses := n }, ?_⟩
  on_goal 4 => refine ⟨s.marks.searchSize, fun n => s.withMarks { s.marks with searchSize := n }, ?_⟩
  on_goal 5 => refine ⟨s.marks.geomTol, fun n => s.withMarks { s.marks with geomTol := n }, ?_⟩
  on_goal 6 => refine ⟨s.marks.seamTol, fun n => s.withMarks { s.marks with seamTol := n }, ?_⟩
  on_goal 7 => refine ⟨s.motion.params.kissPressure, fun n =>
      s.withMotion { s.motion with params := { s.motion.params with kissPressure := n } }, ?_⟩
  on_goal 8 => refine ⟨s.motion.params.thruPressure, fun n =>
      s.withMotion { s.motion with params := { s.motion.params with thruPressure := n } }, ?_⟩
  on_goal 9 => refine ⟨s.motion.params.kissSpeed, fun n =>
      s.withMotion { s.motion with params := { s.motion.params with kissSpeed := n } }, ?_⟩
  on_goal 10 => refine ⟨s.motion.params.thruSpeed, fun n =>
      s.withMotion { s.motion with params := { s.motion.params with thruSpeed := n } }, ?_⟩
  on_goal 11 => refine ⟨s.motion.params.travelSpeed, fun n =>
      s.withMotion { s.motion with params := { s.motion.params with travelSpeed := n } }, ?_⟩
  on_goal 12 => refine ⟨s.motion.params.slipTol, fun n =>
      s.withMotion { s.motion with params := { s.motion.params with slipTol := n } }, ?_⟩
  on_goal 13 => refine ⟨s.motion.params.feedGuardTime, fun n =>
      s.withMotion { s.motion with params := { s.motion.params with feedGuardTime := n } }, ?_⟩
  on_goal 14 => refine ⟨s.cycle.vacSettle, fun n => s.withCycle { s.cycle with vacSettle := n }, ?_⟩
  all_goals
    refine ⟨rfl, fun v => rfl, fun n => rfl, fun n other index apart => paramValue_others apart rfl fun b no => ?_,
      fun n => rfl, fun n => rfl, fun n => rfl⟩
    unfold State.paramValue
    split
    · refine if_congr Iff.rfl rfl ?_
      split <;> first | rfl | exact (no (byte_of_toNat ‹_›)).elim
    · rfl

/-- A code and an index that the table does not list (R165). -/
theorem paramValue_unlisted {s : State} {code index : Byte}
    (unlisted : ∀ row ∈ parameterIndices, ¬(row.1 = code ∧ row.2.1 ≤ index.toNat ∧ index.toNat ≤ row.2.2)) :
    s.paramValue code index = none := by
  have apart {n least most : Nat} (number : code.toNat = n)
      (row : (BitVec.ofNat 8 n, least, most) ∈ parameterIndices)
      (inside : least ≤ index.toNat ∧ index.toNat ≤ most) : False :=
    unlisted _ row ⟨(byte_of_toNat number).symm, inside⟩
  unfold State.paramValue
  split
  · split
    · rfl
    · rename_i zero
      have inside : 0 ≤ index.toNat ∧ index.toNat ≤ 0 := by
        rw [not_not.mp zero]
        exact ⟨Nat.le_refl _, Nat.le_refl _⟩
      split
      case h_21 => rfl
      all_goals exact (apart ‹_› (least := 0) (most := 0) (by simp [parameterIndices]) inside).elim
  · split
    · exact dif_neg fun below => apart ‹_› (least := 0) (most := 3) (by simp [parameterIndices])
        ⟨by omega, by omega⟩
    · exact dif_neg fun below => apart ‹_› (least := 1) (most := 7) (by simp [parameterIndices])
        ⟨by omega, by omega⟩
    · exact dif_neg fun below => apart ‹_› (least := 0) (most := 7) (by simp [parameterIndices])
        ⟨by omega, by omega⟩
    · exact dif_neg fun below => apart ‹_› (least := 0) (most := 7) (by simp [parameterIndices])
        ⟨by omega, by omega⟩
    · rfl

/-! ### VAC_SAFE and the enables -/

theorem paramValue_vacSafe {s : State} {index : Byte} {z : Fin 4} (named : index.toNat = z.val) :
    s.paramValue 0x30 index = some (s.bed.vacSafe.get z).code := by
  have below : index.toNat < 4 := named ▸ z.isLt
  have same : (⟨index.toNat, below⟩ : Fin 4) = z := Fin.ext named
  exact (dif_pos below).trans (by rw [same])

theorem writeParam_vacSafe {s : State} {index : Byte} {z : Fin 4} (named : index.toNat = z.val) (v : Int) :
    s.writeParam 0x30 index v = writeRange 0 1 (s.bed.vacSafe.get z).code v (fun n => s.withBed { s.bed with
      vacSafe := s.bed.vacSafe.set z (if n = 0 then .hold else .release) }) s := by
  have below : index.toNat < 4 := named ▸ z.isLt
  have same : (⟨index.toNat, below⟩ : Fin 4) = z := Fin.ext named
  exact (dif_pos below).trans (by rw [same])

section
variable {s : State} {index : Byte} {i : Fin 8} (named : index.toNat = i.val)
include named

theorem paramValue_enables : s.paramValue 0x32 index = some (bitAt 0 (s.bed.lines.get i).riseEn) ∧
    s.paramValue 0x33 index = some (bitAt 0 (s.bed.lines.get i).fallEn) := by
  have below : index.toNat < 8 := named ▸ i.isLt
  have same : (⟨index.toNat, below⟩ : Fin 8) = i := Fin.ext named
  exact ⟨(dif_pos below).trans (by rw [same]), (dif_pos below).trans (by rw [same])⟩

theorem writeParam_enables (v : Int) :
    s.writeParam 0x32 index v = writeRange 0 1 (bitAt 0 (s.bed.lines.get i).riseEn) v
      (fun n => s.setLine i { s.bed.lines.get i with riseEn := n = 1 }) s ∧
    s.writeParam 0x33 index v = writeRange 0 1 (bitAt 0 (s.bed.lines.get i).fallEn) v
      (fun n => s.setLine i { s.bed.lines.get i with fallEn := n = 1 }) s := by
  have below : index.toNat < 8 := named ▸ i.isLt
  have same : (⟨index.toNat, below⟩ : Fin 8) = i := Fin.ext named
  exact ⟨(dif_pos below).trans (by rw [same]), (dif_pos below).trans (by rw [same])⟩

theorem paramValue_filter (notEstop : i ≠ 0) :
    s.paramValue 0x31 index = some (s.bed.lines.get i).filter.code := by
  have below : 0 < index.toNat ∧ index.toNat < 8 :=
    ⟨by rw [named]; exact Nat.pos_of_ne_zero fun h => notEstop (Fin.ext h), named ▸ i.isLt⟩
  have same : (⟨index.toNat, below.2⟩ : Fin 8) = i := Fin.ext named
  exact (dif_pos below).trans (by rw [same])

theorem writeParam_filter (notEstop : i ≠ 0) (v : Int) : s.writeParam 0x31 index v =
    writeRange 0 3 (s.bed.lines.get i).filter.code v (fun n => s.writeFilter i (filterOf n)) s := by
  have below : 0 < index.toNat ∧ index.toNat < 8 :=
    ⟨by rw [named]; exact Nat.pos_of_ne_zero fun h => notEstop (Fin.ext h), named ▸ i.isLt⟩
  have same : (⟨index.toNat, below.2⟩ : Fin 8) = i := Fin.ext named
  exact (dif_pos below).trans (by rw [same])

end

/-! ### FILTER -/

theorem Table.set_set {α : Type} {n : Nat} (t : Table α n) (i : Fin n) (a b : α) : (t.set i a).set i b = t.set i b := by
  unfold Table.set
  simp only [List.set_set]

theorem setLine_setLine (s : State) (i : Fin 8) (a b : Line) : (s.setLine i a).setLine i b = s.setLine i b := by
  unfold State.setLine
  simp only [State.bed_withBed, Table.set_set]
  rfl

theorem line_setLine (s : State) (i : Fin 8) (a : Line) : (s.setLine i a).bed.lines.get i = a := Table.get_set_self ..

section
variable {s : State} {i : Fin 8} {f : Filter}

/-- A FILTER written while the wire is at the taken level (R133). -/
theorem writeFilter_level (level : (s.bed.lines.get i).wire = (s.bed.lines.get i).taken) :
    s.writeFilter i f = s.setLine i { s.bed.lines.get i with filter := f, timer := none } := by
  unfold State.writeFilter State.filterLine
  simp only [line_setLine]
  rw [if_pos level, setLine_setLine]

/-- A FILTER written while the wire is off the taken level starts its timer (R133). -/
theorem writeFilter_timer (off : (s.bed.lines.get i).wire ≠ (s.bed.lines.get i).taken) (notEstop : i ≠ 0)
    (filters : f ≠ .none) : s.writeFilter i f =
      s.setLine i { s.bed.lines.get i with filter := f, timer := some f.time } := by
  have later : ¬(i.val = 0 ∨ f = .none) := fun h => h.elim (fun h => notEstop (Fin.ext h)) filters
  unfold State.writeFilter State.filterLine
  simp only [line_setLine]
  rw [if_neg off, if_neg later, setLine_setLine]

end

/-- KEY acts on no unit (R139). -/
theorem lineActs_key (rise : Bool) (s : State) : s.lineActs 4 rise = s := by cases rise <;> rfl

/-- FILTER NONE written for KEY while its wire is off the taken level: the level is taken (R132, R133). -/
theorem writeFilter_key {s : State} (off : (s.bed.lines.get 4).wire ≠ (s.bed.lines.get 4).taken) :
    let l := s.bed.lines.get 4
    let t := s.setLine 4 { l with
      filter := .none, taken := l.wire, timer := none, riseChange := l.riseChange || (l.wire && l.riseEn)
      fallChange := l.fallChange || (!l.wire && l.fallEn) }
    s.writeFilter 4 .none =
      if (if l.wire then l.riseEn else l.fallEn) then t.emit (inputNotice 4 l.wire t.levels) else t := by
  intro l t
  have at4 : s.bed.lines.get 4 = l := rfl
  have both : ∀ m : Line, (s.setLine 4 m).bed.lines.get 4 = m := line_setLine s 4
  unfold State.writeFilter State.filterLine State.takeLevel
  simp only [both, lineActs_key, setLine_setLine]
  rw [if_neg off, if_pos (.inr trivial), if_neg off]
  rfl

/-- A request whose action forms one notice and has data: the notice is queued behind the reply (R157 step 5). -/
theorem request_notifies_with {i : Instr} {k tag : Byte} {act : State → Acted} {s t : State} {n : OutRecord}
    {data : List Byte} (h : s.ready) (wf : i.wellFormed = true) (ha : act s = (t.emit n).doneWith data)
    (settled : t.motionSettled = true) (quiet : t.link.formed = []) :
    request i (serve k tag act) s = .next ((t.queueReply k tag .ok data none).queueNotice n) := by
  obtain ⟨⟨_, begun⟩, room⟩ := h
  have served : serve k tag act s = (t.queueReply k tag .ok data none).emit n := by
    unfold serve
    rw [ha]
    rfl
  have still : ((t.queueReply k tag .ok data none).emit n).motionSettled = true := settled
  rw [request_delivers room wf, begin_quiet begun, served, close_settled still,
    flush_emit ((formed_queueReply ..).trans quiet)]

section
variable {s : State} {tag code index : Byte} {value : Word} {lo hi held : Nat} {write : Nat → State}
  (act : actSetParam code index value s = writeRange lo hi held value.toInt write s)
include act

theorem actSetParam_written (inside : lo ≤ value.toInt ∧ value.toInt ≤ hi) (other : value.toInt ≠ held) :
    actSetParam code index value s = (write value.toInt.toNat).doneWith (wordBytes value) := by
  rw [act, writeRange_writes inside.1 inside.2 other, be32i_toInt]

variable (ready : s.ready)
include ready

theorem setParam_outside (outside : value.toInt < lo ∨ hi < value.toInt) :
    exec (.setParam tag code index value) s = .next (s.queueReply 0x04 tag .badArg [] none) :=
  request_unchanged ready rfl (act.trans (writeRange_outside outside))

theorem setParam_held (inside : lo ≤ value.toInt ∧ value.toInt ≤ hi) (same : value.toInt = held) :
    exec (.setParam tag code index value) s = .next (s.queueReply 0x04 tag .noChange [] none) :=
  request_unchanged ready rfl (act.trans (writeRange_held inside.1 inside.2 same))

theorem setParam_written {t : State} (inside : lo ≤ value.toInt ∧ value.toInt ≤ hi) (other : value.toInt ≠ held)
    (made : write value.toInt.toNat = t) (settled : t.motionSettled = true) (quiet : t.link.formed = []) :
    exec (.setParam tag code index value) s = .next (t.queueReply 0x04 tag .ok (wordBytes value) none) := by
  have written := actSetParam_written act inside other
  rw [made] at written
  exact request_answered ready rfl written settled quiet

end

/-! ### The codes of the enumerated values -/

theorem VacSafe.code_injective {a b : VacSafe} (h : a.code = b.code) : a = b := by
  cases a <;> cases b <;> first | rfl | cases h

theorem Filter.code_injective {a b : Filter} (h : a.code = b.code) : a = b := by
  cases a <;> cases b <;> first | rfl | cases h

theorem bitAt_injective {a b : Bool} (h : bitAt 0 a = bitAt 0 b) : a = b := by
  cases a <;> cases b <;> first | rfl | cases h

theorem filterOf_code (f : Filter) : filterOf f.code = f := by cases f <;> rfl

theorem inside_of_code {v : Int} {code most : Nat} (number : v = code) (below : code ≤ most) :
    ((0 : Nat) : Int) ≤ v ∧ v ≤ most := by omega

/-- SET_PARAM of RISE_EN and FALL_EN (R133). -/
theorem setParam_enables {s : State} {tag index : Byte} {value : Word} {i : Fin 8} {on : Bool} (ready : s.ready)
    (named : index.toNat = i.val) (number : value.toInt = bitAt 0 on) :
    ((s.bed.lines.get i).riseEn = on →
      exec (.setParam tag 0x32 index value) s = .next (s.queueReply 0x04 tag .noChange [] none)) ∧
    ((s.bed.lines.get i).riseEn ≠ on → exec (.setParam tag 0x32 index value) s =
      .next ((s.setLine i { s.bed.lines.get i with riseEn := on }).queueReply 0x04 tag .ok (wordBytes value) none)) ∧
    ((s.bed.lines.get i).fallEn = on →
      exec (.setParam tag 0x33 index value) s = .next (s.queueReply 0x04 tag .noChange [] none)) ∧
    ((s.bed.lines.get i).fallEn ≠ on → exec (.setParam tag 0x33 index value) s =
      .next ((s.setLine i { s.bed.lines.get i with fallEn := on }).queueReply 0x04 tag .ok (wordBytes value)
        none)) := by
  have ⟨⟨settled, quiet⟩, _⟩ := ready
  obtain ⟨riseHeld, fallHeld⟩ := paramValue_enables (s := s) named
  obtain ⟨rises, falls⟩ := writeParam_enables (s := s) named value.toInt
  have rise := (actSetParam_listed riseHeld).trans rises
  have fall := (actSetParam_listed fallHeld).trans falls
  have inside := inside_of_code (most := 1) number (by cases on <;> decide)
  have written : decide (value.toInt.toNat = 1) = on := by
    rw [number]
    cases on <;> rfl
  refine ⟨fun holds => setParam_held rise ready inside (by rw [number, holds]),
    fun other => setParam_written rise ready inside (fun same => ?_) (by rw [written]) settled quiet,
    fun holds => setParam_held fall ready inside (by rw [number, holds]),
    fun other => setParam_written fall ready inside (fun same => ?_) (by rw [written]) settled quiet⟩
  · exact other (bitAt_injective (Int.ofNat_inj.mp (same.symm.trans number)))
  · exact other (bitAt_injective (Int.ofNat_inj.mp (same.symm.trans number)))

/-- The record of an INPUT notice of KEY (R134, R164). -/
theorem inputNotice_key (level : Bool) (levels : Nat) :
    inputNotice 4 level levels = ⟨0x69, 0, [4, if level then 0 else 1, if level then 1 else 0, u8 levels], none⟩ := by
  cases level <;> rfl

/-- Settles O17: each owner answers by its range and the value held; of the writes, a FILTER alone can form a notice. -/
theorem rangeParametersWritten : Obligations.RangeParametersWritten := by
  refine ⟨fun s tag code lo hi value ready row => ?_, fun s tag code index value ready unlisted => ?_,
    fun s tag index value z ready named => ?_, fun s tag index value i ready named => ?_⟩
  all_goals have ⟨⟨settled, quiet⟩, _⟩ := ready
  · obtain ⟨held, write, own⟩ := rangeOwned s row
    have act := (actSetParam_listed (value := value) own.value).trans (own.answer value.toInt)
    refine ⟨fun outside => setParam_outside act ready outside, fun other holds least most same => ?_,
      fun least most changes => ?_⟩
    · obtain rfl : held = other := Option.some.inj (own.value.symm.trans holds)
      exact setParam_held act ready (by omega) same
    · have number : value.toInt.toNat = value.toNat := toNat_toInt (by omega)
      have differs : value.toInt ≠ held := fun same => changes (by
        rw [own.value, ← number, same]
        rfl)
      refine ⟨write value.toNat, ?_, own.written _, own.others _, own.rest _⟩
      exact setParam_written act ready ⟨least, most⟩ differs (by rw [number]) ((own.queue _).trans settled)
        ((congrArg _ (own.link _)).trans quiet)
  · exact request_unchanged ready rfl (actSetParam_unlisted (paramValue_unlisted unlisted))
  · intro answer
    have act := (actSetParam_listed (s := s) (value := value) (paramValue_vacSafe named)).trans
      (writeParam_vacSafe named value.toInt)
    refine ⟨fun outside => setParam_outside act ready outside, fun v number => ?_⟩
    have code : value.toInt = v.code := by
      rw [number]
      cases v <;> rfl
    have inside := inside_of_code (most := 1) code (by cases v <;> decide)
    have made : (if value.toInt.toNat = 0 then VacSafe.hold else .release) = v := by
      rw [code]
      cases v <;> rfl
    refine ⟨fun holds => setParam_held act ready inside (by rw [code, holds]), fun other => ?_⟩
    have differs : value.toInt ≠ (s.bed.vacSafe.get z).code := fun same =>
      other (VacSafe.code_injective (Int.ofNat_inj.mp (same.symm.trans code)))
    exact setParam_written act ready inside differs (by rw [made]; rfl) settled quiet
  · intro l withLine answer written
    have act (notEstop : i ≠ 0) := (actSetParam_listed (s := s) (value := value)
      (paramValue_filter named notEstop)).trans (writeParam_filter named notEstop value.toInt)
    refine ⟨fun outside => ⟨?_, ?_⟩, fun on number => ?_, fun notEstop => ⟨fun outside => ?_, fun f number => ?_⟩⟩
    · exact setParam_outside ((actSetParam_listed (paramValue_enables named).1).trans
        (writeParam_enables named value.toInt).1) ready outside
    · exact setParam_outside ((actSetParam_listed (paramValue_enables named).2).trans
        (writeParam_enables named value.toInt).2) ready outside
    · exact setParam_enables ready named (by rw [number]; cases on <;> rfl)
    · exact setParam_outside (act notEstop) ready outside
    · have act := act notEstop
      have code : value.toInt = f.code := by
        rw [number]
        cases f <;> rfl
      have inside := inside_of_code (most := 3) code (by cases f <;> decide)
      have differs (other : l.filter ≠ f) : value.toInt ≠ (s.bed.lines.get i).filter.code := fun same =>
        other (Filter.code_injective (Int.ofNat_inj.mp (same.symm.trans code)))
      have named' : filterOf value.toInt.toNat = f := by
        rw [code]
        exact filterOf_code f
      refine ⟨fun holds => setParam_held act ready inside (by rw [code, ← holds]), fun other level => ?_,
        fun other off filters => ?_, fun other off none key => ?_⟩
      · exact setParam_written act ready inside (differs other) (by rw [named', writeFilter_level level]; rfl) settled
          quiet
      · refine setParam_written act ready inside (differs other) ?_ settled quiet
        rw [named', writeFilter_timer off notEstop filters]
        cases f <;> rfl
      · subst key none
        intro enabled t u
        have wrote := actSetParam_written act inside (differs other)
        rw [named', writeFilter_key off, inputNotice_key] at wrote
        by_cases on : enabled = true
        · rw [if_pos on] at wrote ⊢
          exact request_notifies_with ready rfl wrote settled quiet
        · rw [if_neg on] at wrote ⊢
          exact request_answered ready rfl wrote settled quiet

end Sys2Proof.Machine

/-! SET_PARAM of the layout parameters (R24) and SET_BREAK with its breakpoints (R106 to R109). -/

namespace Sys2Proof.Machine

/-! ### The layout parameters -/

/-- Some panel holds a placement (R24). -/
theorem placed_iff {s : State} : (s.store.panels.cells.any fun p => p.placement.isSome) = true ↔
    ∃ i, (s.panel i).placement ≠ none :=
  (Table.any_cells_iff ..).trans (exists_congr fun _ => Option.isSome_iff_ne_none)

section
variable {s : State} {lo hi held : Nat} {clash : Bool} {v : Int} {lp : LayoutParams}

theorem writeLayout_running (running : s.nest.run ≠ none) :
    writeLayout lo hi held clash v lp s = s.answer .nestBusy := if_pos (nestRunning_iff.mpr running)

variable (idle : s.nest.run = none)
include idle

theorem writeLayout_outside (outside : v < lo ∨ hi < v ∨ clash = true) :
    writeLayout lo hi held clash v lp s = s.answer .badArg :=
  (if_neg (not_nestRunning idle)).trans (if_pos outside)

variable (inside : ¬(v < lo ∨ hi < v ∨ clash = true))
include inside

theorem writeLayout_placed (placed : ∃ i, (s.panel i).placement ≠ none) :
    writeLayout lo hi held clash v lp s = s.answer .locked :=
  (if_neg (not_nestRunning idle)).trans ((if_neg inside).trans (if_pos (placed_iff.mpr placed)))

variable (bare : ¬∃ i, (s.panel i).placement ≠ none)
include bare

theorem writeLayout_held (same : v = held) : writeLayout lo hi held clash v lp s = s.answer .noChange :=
  (if_neg (not_nestRunning idle)).trans ((if_neg inside).trans ((if_neg (placed_iff.not.mpr bare)).trans (if_pos same)))

theorem writeLayout_writes (other : v ≠ held) : writeLayout lo hi held clash v lp s =
    (s.withNest { s.nest with params := lp }).doneWith (be32i v) :=
  (if_neg (not_nestRunning idle)).trans
    ((if_neg inside).trans ((if_neg (placed_iff.not.mpr bare)).trans (if_neg other)))

end

/-- SET_PARAM of one layout parameter; the clash and the new parameters are those of a value that is not negative. -/
theorem setParam_layout {s : State} {tag code : Byte} {value : Word} {lo hi held : Nat} {clash : Bool} {P : Prop}
    {lp new : LayoutParams} (ready : s.ready)
    (act : actSetParam code 0 value s = writeLayout lo hi held clash value.toInt lp s)
    (clashes : value.toInt.toNat = value.toNat → (clash = true ↔ P))
    (writes : value.toInt.toNat = value.toNat → lp = new) :
    (s.nest.run ≠ none → exec (.setParam tag code 0 value) s = .next (s.queueReply 0x04 tag .nestBusy [] none)) ∧
    (s.nest.run = none → (value.toInt < lo ∨ hi < value.toInt ∨ P) →
      exec (.setParam tag code 0 value) s = .next (s.queueReply 0x04 tag .badArg [] none)) ∧
    (s.nest.run = none → lo ≤ value.toInt → value.toInt ≤ hi → ¬P →
      ((∃ i, (s.panel i).placement ≠ none) →
        exec (.setParam tag code 0 value) s = .next (s.queueReply 0x04 tag .locked [] none)) ∧
      (¬(∃ i, (s.panel i).placement ≠ none) → value.toInt = held →
        exec (.setParam tag code 0 value) s = .next (s.queueReply 0x04 tag .noChange [] none)) ∧
      (¬(∃ i, (s.panel i).placement ≠ none) → value.toInt ≠ held →
        exec (.setParam tag code 0 value) s = .next
          ({ s with nest := { s.nest with params := new } }.queueReply 0x04 tag .ok (wordBytes value) none))) := by
  have refused {status : Status} (h : writeLayout lo hi held clash value.toInt lp s = s.answer status) :
      exec (.setParam tag code 0 value) s = .next (s.queueReply 0x04 tag status [] none) :=
    request_unchanged ready rfl (act.trans h)
  have ⟨⟨settled, quiet⟩, _⟩ := ready
  refine ⟨fun running => refused (writeLayout_running running),
    fun idle outside => refused (writeLayout_outside idle ?_),
    fun idle least most clear => ?_⟩
  · rcases lt_or_ge value.toInt 0 with negative | positive
    · exact .inl (by omega)
    · exact outside.imp_right (Or.imp_right (clashes (toNat_toInt positive)).mpr)
  · have number := toNat_toInt (w := value) (by omega)
    have inside : ¬(value.toInt < lo ∨ hi < value.toInt ∨ clash = true) := by
      rw [clashes number]
      exact fun h => h.elim (by omega) fun h => h.elim (by omega) clear
    refine ⟨fun placed => refused (writeLayout_placed idle inside placed),
      fun bare same => refused (writeLayout_held idle inside bare same), fun bare other => ?_⟩
    have wrote := act.trans (writeLayout_writes idle inside bare other)
    rw [be32i_toInt, writes number] at wrote
    exact request_answered ready rfl wrote settled quiet

/-- Settles O18: the nest unit answers each layout parameter by the same checks. -/
theorem layoutParametersLocked : Obligations.LayoutParametersLocked := by
  intro s tag value ready lp placed answers n
  refine ⟨setParam_layout ready rfl (fun _ => ?_) fun number => ?_,
    setParam_layout ready rfl (fun _ => ?_) fun number => ?_,
    setParam_layout ready rfl (fun _ => ?_) fun number => ?_,
    setParam_layout ready rfl (fun number => ?_) fun number => ?_,
    setParam_layout ready rfl (fun number => ?_) fun number => ?_,
    setParam_layout ready rfl (fun _ => ?_) fun number => ?_⟩
  case refine_7 | refine_9 => rw [number]; exact decide_eq_true_iff
  case refine_1 | refine_3 | refine_5 | refine_11 => exact Bool.false_eq_true.to_iff
  all_goals rw [number]

/-! ### SET_BREAK -/

theorem breakActionOf_code (a : BreakAction) {action : Byte}
    (named : action.toNat = if a = BreakAction.halt then 0 else 1) : breakActionOf action = some a := by
  have same := byte_of_toNat named
  subst same
  cases a <;> rfl

theorem breakActionOf_above {action : Byte} (above : 1 < action.toNat) : breakActionOf action = none := by
  have other (n : Nat) (below : n ≤ 1) : action ≠ BitVec.ofNat 8 n := fun same => by
    rw [same, BitVec.toNat_ofNat] at above
    omega
  exact (if_neg (other 0 (by omega))).trans (if_neg (other 1 (by omega)))

theorem onOffOf_above {action : Byte} (above : 1 < action.toNat) : onOffOf action = none := by
  have other (n : Nat) (below : n ≤ 1) : action ≠ BitVec.ofNat 8 n := fun same => by
    rw [same, BitVec.toNat_ofNat] at above
    omega
  exact (if_neg (other 0 (by omega))).trans (if_neg (other 1 (by omega)))

theorem onOffOf_code (on : Bool) {action : Byte} (named : action.toNat = if on then 1 else 0) :
    onOffOf action = some on := by
  have same := byte_of_toNat named
  subst same
  cases on <;> rfl

section
variable {s : State} {index kind argument action : Byte}

theorem actSetBreak_above (above : 4 < index.toNat) : actSetBreak index kind argument action s = s.answer .badArg := by
  have notStep : index ≠ 4 := fun same => by
    rw [same] at above
    exact absurd above (by decide)
  exact (dif_neg (by omega)).trans (if_neg notStep)

theorem actSetBreak_step : actSetBreak 4 kind argument action s = match onOffOf action with
    | none => s.answer .badArg
    | some b => if s.cycle.step = b then s.answer .noChange else (s.withCycle { s.cycle with step := b }).done :=
  rfl

theorem actSetBreak_entry {j : Fin 4} (named : index.toNat = j.val) : actSetBreak index kind argument action s =
    match breakKindOf kind argument, breakActionOf action with
    | some k, some a =>
      if s.cycle.breakpoints.get j = ⟨k, a⟩ then s.answer .noChange
      else (s.withCycle { s.cycle with breakpoints := s.cycle.breakpoints.set j ⟨k, a⟩ }).done
    | _, _ => s.answer .badArg := by
  have below : index.toNat < 4 := named ▸ j.isLt
  have same : (⟨index.toNat, below⟩ : Fin 4) = j := Fin.ext named
  unfold actSetBreak
  rw [dif_pos below, same] <;> rfl

end

/-! ### The breakpoints at an item start -/

/-- A breakpoint with the action stands at an entry and matches the item start (R102). -/
def State.hitsAt (s : State) (w : Worklist) (r : ItemStart) (a : BreakAction) (i : Fin 4) : Prop :=
  (s.cycle.breakpoints.get i).action = a ∧ (s.cycle.breakpoints.get i).hits w r = true

theorem getLsbD_hitBits (bps : Table Breakpoint 4) (a : BreakAction) (w : Worklist) (r : ItemStart) (i : Fin 4) :
    (hitBits bps a w r).getLsbD i.val = true ↔ (bps.get i).action = a ∧ (bps.get i).hits w r = true := by
  have bits : ∀ (p q x y : Bool) (i : Fin 4),
      (BitVec.ofNat 4 (bitAt 0 p + bitAt 1 q + bitAt 2 x + bitAt 3 y)).getLsbD i.val =
        (match i with | 0 => p | 1 => q | 2 => x | 3 => y) := by decide
  have cell (f : Fin 4 → Bool) :
      (BitVec.ofNat 4 (bitAt 0 (f 0) + bitAt 1 (f 1) + bitAt 2 (f 2) + bitAt 3 (f 3))).getLsbD i.val = f i := by
    rw [bits]
    match i with
    | 0 | 1 | 2 | 3 => rfl
  unfold hitBits
  rw [cell fun i => decide ((bps.get i).action = a) && (bps.get i).hits w r, Bool.and_eq_true, decide_eq_true_iff]

theorem hitBits_eq_zero {bps : Table Breakpoint 4} {a : BreakAction} {w : Worklist} {r : ItemStart} :
    hitBits bps a w r = 0 ↔ ∀ i, ¬((bps.get i).action = a ∧ (bps.get i).hits w r = true) := by
  constructor
  · intro zero i hit
    have bit := (getLsbD_hitBits bps a w r i).mpr hit
    rw [zero] at bit
    simp at bit
  · intro none
    refine BitVec.eq_of_getLsbD_eq fun i below => ?_
    have bit := (getLsbD_hitBits bps a w r ⟨i, below⟩).not.mpr (none ⟨i, below⟩)
    rw [Bool.not_eq_true] at bit
    rw [bit]
    simp

theorem begun_iff (w : Worklist) (which : Item → Bool) :
    (!(w.begun which)) = true ↔ ∀ it ∈ w.items, which it = true → ¬(it.state = .active ∨ it.state = .done) := by
  simp [Worklist.begun]

section
variable (s : State) (w : Worklist) (r : ItemStart)

/-- What the test of an item start leaves in the cycle controller (R102). -/
theorem cycle_testItemStart : (s.testItemStart w r).1.cycle = { s.cycle with
    reasons := { s.cycle.reasons with
      step := s.cycle.reasons.step || s.cycle.step
      brk := s.cycle.reasons.brk || hitBits s.cycle.breakpoints .halt w r != 0 }
    halts := s.cycle.halts ||| hitBits s.cycle.breakpoints .halt w r } := by
  unfold State.testItemStart
  by_cases quiet : hitBits s.cycle.breakpoints .notify w r = 0
  · simp only [if_pos quiet]
    rfl
  · simp only [if_neg quiet]
    rfl

/-- The test of an item start changes the link port and the cycle controller alone. -/
theorem rest_testItemStart : (s.testItemStart w r).1 =
    { s with link := (s.testItemStart w r).1.link, cycle := (s.testItemStart w r).1.cycle } := by
  unfold State.testItemStart
  by_cases quiet : hitBits s.cycle.breakpoints .notify w r = 0
  · simp only [if_pos quiet]
    rfl
  · simp only [if_neg quiet]
    rfl

/-- The BREAK notice of an item start (R102). -/
theorem link_testItemStart : (s.testItemStart w r).1.link =
    if hitBits s.cycle.breakpoints .notify w r = 0 then s.link else { s.link with formed := s.link.formed ++
      [breakNotice (hitBits s.cycle.breakpoints .notify w r) r.window r.item r.slot] } := by
  unfold State.testItemStart
  by_cases quiet : hitBits s.cycle.breakpoints .notify w r = 0
  · simp only [if_pos quiet]
    rfl
  · simp only [if_neg quiet]
    rfl

theorem go_testItemStart : (s.testItemStart w r).2 = !(s.testItemStart w r).1.cycle.reasons.any := rfl

end

theorem noReasons_iff (r : Reasons) : (!r.any) = true ↔ r = ⟨false, false, false⟩ := by
  obtain ⟨a, b, c⟩ := r
  simp [Reasons.any, and_assoc]

/-- The halting breakpoints add BREAK exactly when one matches (R102). -/
theorem halting_iff {s : State} {w : Worklist} {r : ItemStart} :
    (hitBits s.cycle.breakpoints .halt w r != 0) = true ↔ ∃ i, s.hitsAt w r .halt i := by
  rw [bne_iff_ne, ne_eq, hitBits_eq_zero, not_forall_not]
  rfl

theorem testItemStart_spec (s : State) (w : Worklist) (r : ItemStart) :
    let t := (s.testItemStart w r).1
    let hit (a : BreakAction) (i : Fin 4) : Prop :=
      (s.cycle.breakpoints.get i).action = a ∧ (s.cycle.breakpoints.get i).hits w r = true
    t.cycle.reasons.request = s.cycle.reasons.request ∧
    t.cycle.reasons.step = (s.cycle.reasons.step || s.cycle.step) ∧
    (t.cycle.reasons.brk = true ↔ (s.cycle.reasons.brk = true ∨ ∃ i, hit .halt i)) ∧
    (∀ i : Fin 4, t.cycle.halts.getLsbD i.val = true ↔ (s.cycle.halts.getLsbD i.val = true ∨ hit .halt i)) ∧
    t = { s with
      link := t.link
      cycle := { s.cycle with reasons := t.cycle.reasons, halts := t.cycle.halts } } ∧
    ((s.testItemStart w r).2 = true ↔ t.cycle.reasons = ⟨false, false, false⟩) ∧
    ((∀ i, ¬ hit .notify i) → t.link = s.link) ∧
    ((∃ i, hit .notify i) → ∃ bits : BitVec 4, (∀ i : Fin 4, bits.getLsbD i.val = true ↔ hit .notify i) ∧
      t.link = { s.link with formed := s.link.formed ++ [breakNotice bits r.window r.item r.slot] }) := by
  intro t hit
  have cycle : t.cycle = _ := cycle_testItemStart s w r
  have link : t.link = _ := link_testItemStart s w r
  refine ⟨by rw [cycle], by rw [cycle], ?_, fun i => ?_, ?_, noReasons_iff _, fun none => ?_, fun some => ?_⟩
  · rw [cycle]
    exact Bool.or_eq_true_iff.trans (or_congr_right halting_iff)
  · rw [cycle]
    show (s.cycle.halts ||| _).getLsbD i.val = true ↔ _
    rw [BitVec.getLsbD_or, Bool.or_eq_true]
    exact or_congr_right (getLsbD_hitBits ..)
  · refine (rest_testItemStart s w r).trans ?_
    show State.mk .. = State.mk ..
    congr 1
    rw [cycle]
  · rw [link, if_pos (hitBits_eq_zero.mpr none)]
  · refine ⟨hitBits s.cycle.breakpoints .notify w r, fun i => getLsbD_hitBits .., ?_⟩
    rw [link, if_neg (hitBits_eq_zero.not.mpr fun none => some.elim none)]

/-- An item start that the cycle answers with stop is reported and places nothing (R84). -/
theorem issueItem_stopped {s : State} {w : Worklist} {i : Nat} {it : Item} (due : w.issue.travelDue = true)
    (fresh : w.issue.reported = false) (pass : it.passDone = 0) (seg : it.segDone = 0) (first : w.startPassed ≠ some i)
    (stop : (s.testItemStart w ⟨w.window, i, it.slot, s.pointBand (s.itemPoint w it 0)⟩).2 = false) :
    s.issueItem w i it =
      ((s.testItemStart w ⟨w.window, i, it.slot, s.pointBand (s.itemPoint w it 0)⟩).1.withPlan
        { (s.testItemStart w ⟨w.window, i, it.slot, s.pointBand (s.itemPoint w it 0)⟩).1.plan with
          worklist := some { w with startPassed := some i, stopped := true } }, .stopped) := by
  have report : w.reportDue i it = true := by simp [Worklist.reportDue, pass, seg, fresh, first]
  unfold State.issueItem
  rw [if_pos due, if_pos report]
  dsimp only
  revert stop
  rcases s.testItemStart w ⟨w.window, i, it.slot, s.pointBand (s.itemPoint w it 0)⟩ with ⟨t, go⟩
  rintro rfl
  rfl

/-- The planner has no entry in the motion queue. -/
theorem not_plannerQueued {s : State} (none : ∀ e ∈ s.motion.queue, e.producer ≠ .planner) :
    s.plannerQueued = false := by
  rw [State.plannerQueued, List.any_eq_false]
  exact fun e within => by simpa using none e within

/-- Settles O36. -/
theorem setBreakWrites : Obligations.SetBreakWrites := by
  refine ⟨?written, fun argument => ⟨rfl, rfl, rfl, rfl, rfl, fun kind above => ?kinds⟩, fun w r a n => ?hits,
    testItemStart_spec, ?starts, fun s pending none => ?drained⟩
  case written =>
    intro s tag index kind argument action ready answer
    refine ⟨fun above => request_unchanged ready rfl (actSetBreak_above above), ?_, fun j named => ?_⟩
    · rintro rfl
      have act := actSetBreak_step (s := s) (kind := kind) (argument := argument) (action := action)
      refine ⟨fun above => request_unchanged ready rfl (by rw [act, onOffOf_above above]), fun on named => ?_⟩
      rw [onOffOf_code on named] at act
      refine ⟨fun same => request_unchanged ready rfl (act.trans (if_pos same)), fun other => ?_⟩
      have ⟨⟨settled, quiet⟩, _⟩ := ready
      exact request_answered ready rfl (act.trans (if_neg other)) settled quiet
    · have act := actSetBreak_entry (s := s) (kind := kind) (argument := argument) (action := action) named
      refine ⟨fun wrong => request_unchanged ready rfl (act.trans ?_), fun k a known code => ?_⟩
      · rcases wrong with above | unknown
        · rw [breakActionOf_above above]
          cases breakKindOf kind argument <;> rfl
        · rw [unknown]
      · rw [known, breakActionOf_code a code] at act
        refine ⟨fun same => request_unchanged ready rfl (act.trans (if_pos same)), fun other => ?_⟩
        have ⟨⟨settled, quiet⟩, _⟩ := ready
        exact request_answered ready rfl (act.trans (if_neg other)) settled quiet
  case kinds =>
    unfold breakKindOf
    split
    case h_6 => rfl
    all_goals omega
  case hits =>
    intro begun
    refine ⟨rfl, rfl, ?_, ?_, decide_eq_true_iff⟩
    · refine (Bool.and_eq_true_iff).trans (and_congr decide_eq_true_iff ((begun_iff w _).trans ?_))
      simp only [decide_eq_true_eq, begun]
    · refine (Bool.and_eq_true_iff).trans (and_congr decide_eq_true_iff ((begun_iff w _).trans ?_))
      simp only [forall_const, begun]
  case starts =>
    intro s w i it due fresh pass seg first asked stop
    exact issueItem_stopped due fresh pass seg first stop
  case drained =>
    have drained : (s.suspendPending && !s.plannerQueued) = true := by
      rw [pending, not_plannerQueued none]
      rfl
    unfold State.suspendIfDrained
    rw [if_pos drained]
    exact ⟨rfl, rfl, rfl⟩

end Sys2Proof.Machine

/-! The panel store's requests: OPEN_OUTLINE, POINTS, CLOSE_OUTLINE, SET_PANEL, DELETE_PANEL (R6 to R16). -/

namespace Sys2Proof.Machine

/-! ### Operands -/

theorem toolOf_code (t : Tool) {tool : Byte} (named : tool.toNat = t.code) : toolOf tool = some t := by
  have same := byte_of_toNat named
  subst same
  cases t <;> rfl

theorem settingsOf_eq {bleed : Half} {tool flags order passes : Byte} {label : List Byte} {t : Tool}
    (named : tool.toNat = t.code) (bleeds : bleed.toNat ≤ 5000) (flagged : flags.toNat < 4) (passed : passes.toNat ≤ 4)
    (short : label.length ≤ 12) (printable : ∀ c ∈ label, 0x20 ≤ c.toNat ∧ c.toNat ≤ 0x7E) :
    settingsOf bleed tool flags order passes label =
      some ⟨label, t, flags.getLsbD 0, flags.getLsbD 1, order.toNat, passes.toNat, bleed.toNat⟩ := by
  have ok : labelOk label = true := by
    simpa [labelOk, short] using printable
  have panelFlags : panelFlagsOf flags = some (flags.getLsbD 0, flags.getLsbD 1) := if_pos flagged
  unfold settingsOf
  rw [toolOf_code t named, panelFlags]
  exact if_pos ⟨bleeds, passed, ok⟩

/-- The blocks that an outline needs (R12). -/
theorem ceilDiv_blockPlaces (n : Nat) : ceilDiv n Config.blockPlaces = (n + 31) / 32 := rfl

theorem openOutline_wellFormed {tag slot : Byte} {n bleed : Half} {tool flags order passes : Byte} {label : List Byte}
    (short : label.length ≤ 12) :
    (Instr.openOutline tag slot n bleed tool flags order passes label).wellFormed = true := decide_eq_true short

theorem setPanel_wellFormed {tag slot : Byte} {bleed : Half} {tool flags order passes : Byte} {label : List Byte}
    (short : label.length ≤ 12) :
    (Instr.setPanel tag slot bleed tool flags order passes label).wellFormed = true := decide_eq_true short

/-! ### OPEN_OUTLINE -/

section
variable {s : State} {slot tool flags order passes : Byte} {n bleed : Half} {label : List Byte}

theorem actOpenOutline_running (running : s.nest.run ≠ none) :
    actOpenOutline slot n bleed tool flags order passes label s = s.answer .nestBusy :=
  if_pos (nestRunning_iff.mpr running)

variable (idle : s.nest.run = none)
include idle

theorem actOpenOutline_open (isOpen : s.store.loader ≠ none) :
    actOpenOutline slot n bleed tool flags order passes label s = s.answer .outlineOpen :=
  (if_neg (not_nestRunning idle)).trans (if_pos (outlineOpen_iff.mpr isOpen))

variable (closed : s.store.loader = none)
include closed

/-- Check 3 of R11. -/
theorem actOpenOutline_badArg (wrong : 95 < slot.toNat ∨ n.toNat < 3 ∨ 4096 < n.toNat ∨
    settingsOf bleed tool flags order passes label = none) :
    actOpenOutline slot n bleed tool flags order passes label s = s.answer .badArg := by
  unfold actOpenOutline
  rw [if_neg (not_nestRunning idle), if_neg (not_outlineOpen closed)]
  rcases wrong with above | wrong
  · rw [slotOf_above above]
  · cases slotOf slot with
    | none => rfl
    | some i =>
      cases settings : settingsOf bleed tool flags order passes label with
      | none => rfl
      | some g =>
        have count : n.toNat < 3 ∨ 4096 < n.toNat := by
          rcases wrong with few | many | unset
          · exact .inl few
          · exact .inr many
          · rw [unset] at settings
            cases settings
        exact if_pos count

/-- The checks behind check 3 of R11, and the effect (R12). -/
theorem actOpenOutline_slot {i : Slot} {g : Settings} (named : slot.toNat = i.val) (least : 3 ≤ n.toNat)
    (most : n.toNat ≤ 4096) (settings : settingsOf bleed tool flags order passes label = some g) :
    actOpenOutline slot n bleed tool flags order passes label s =
      if (s.panel i).state ≠ .empty then s.answer .refusedState
      else if s.store.free.length < (n.toNat + 31) / 32 then
        { s.answer .noSpace with data := be16 ((n.toNat + 31) / 32) ++ be16 s.store.free.length }
      else (s.withStore (s.store.openSlot i n.toNat g)).doneWith
        (be16 ((n.toNat + 31) / 32) ++ be16 (s.store.free.length - (n.toNat + 31) / 32)) := by
  have inside : ¬(n.toNat < 3 ∨ 4096 < n.toNat) := by omega
  unfold actOpenOutline
  rw [if_neg (not_nestRunning idle), if_neg (not_outlineOpen closed), slotOf_eq_some named, settings]
  exact if_neg inside

end

/-- Settles O19. -/
theorem openOutlineReserves : Obligations.OpenOutlineReserves := by
  constructor
  · intro s tag slot n bleed tool flags order passes label i t ready idle closed named isTool least most bleeds flagged
      passed short printable empty enough
    have ⟨⟨settled, quiet⟩, _⟩ := ready
    have act := actOpenOutline_slot idle closed named least most
      (settingsOf_eq (order := order) isTool bleeds flagged passed short printable)
    rw [if_neg (not_not.mpr empty), if_neg (Nat.not_lt.mpr enough)] at act
    exact request_answered ready (openOutline_wellFormed short) act settled quiet
  · intro s tag slot n bleed tool flags order passes label ready short answer
    have ⟨⟨settled, quiet⟩, _⟩ := ready
    have refused {status : Status}
        (act : actOpenOutline slot n bleed tool flags order passes label s = s.answer status) : answer status [] :=
      request_unchanged ready (openOutline_wellFormed short) act
    refine ⟨fun running => refused (actOpenOutline_running running),
      fun idle isOpen => refused (actOpenOutline_open idle isOpen), fun idle closed =>
        ⟨fun wrong => refused (actOpenOutline_badArg idle closed wrong), fun i named least most set => ?_⟩⟩
    obtain ⟨g, settings⟩ := Option.ne_none_iff_exists'.mp set
    have act := actOpenOutline_slot idle closed named least most settings
    refine ⟨fun used => refused (act.trans (if_pos used)), fun empty few => ?_⟩
    rw [if_neg (not_not.mpr empty), if_pos few] at act
    exact request_answered ready (openOutline_wellFormed short) act settled quiet

/-! ### POINTS -/

theorem points_wellFormed_iff {tag : Byte} {first : Half} {vertices : List RawVertex} :
    (Instr.points tag first vertices).wellFormed = true ↔ 1 ≤ vertices.length ∧ vertices.length ≤ 28 := by
  simp only [Instr.wellFormed, Bool.and_eq_true, decide_eq_true_eq]

/-- POINTS between commands with a count that R14 allows. -/
theorem exec_points {s : State} {tag : Byte} {first : Half} {vertices : List RawVertex} (ready : s.ready)
    (least : 1 ≤ vertices.length) (most : vertices.length ≤ 28) :
    exec (.points tag first vertices) s = .next (runPoints tag first vertices s).close := by
  have delivered := request_delivers (run := runPoints tag first vertices) ready.2
    (points_wellFormed_iff (tag := tag) (first := first).mpr ⟨least, most⟩)
  rw [begin_quiet ready.1.2] at delivered
  exact delivered

theorem exec_points_open {s : State} {tag : Byte} {first : Half} {vertices : List RawVertex} {o : OpenOutline}
    (ready : s.ready) (least : 1 ≤ vertices.length) (most : vertices.length ≤ 28) (isOpen : s.store.loader = some o) :
    exec (.points tag first vertices) s = .next (s.withStore (s.store.stream o first.toNat vertices)) := by
  have run : runPoints tag first vertices s = s.withStore (s.store.stream o first.toNat vertices) := by
    unfold runPoints
    rw [isOpen]
  rw [exec_points ready least most, run]
  exact congrArg _ (close_rest _ ready.1)

/-- Two vertices of one outline stand at two places (R8, R9). -/
theorem placeOf_injective {chain : List Nat} (distinct : chain.Nodup) {i j : Nat} (hi : i < 32 * chain.length)
    (hj : j < 32 * chain.length) (same : placeOf chain i = placeOf chain j) : i = j := by
  have inside (k : Nat) (hk : k < 32 * chain.length) : k / 32 < chain.length := by omega
  unfold placeOf Config.blockPlaces at same
  rw [List.getD_eq_getElem _ _ (inside i hi), List.getD_eq_getElem _ _ (inside j hj)] at same
  have blocks : chain[i / 32]'(inside i hi) = chain[j / 32]'(inside j hj) := by omega
  have index := (List.Nodup.getElem_inj_iff distinct).mp blocks
  rw [blocks] at same
  omega

theorem read_storeFrom_other {chain : List Nat} {first place : Nat} {ws : List RawVertex} {c : List (Nat × Vertex)}
    (other : ∀ k, k < ws.length → place ≠ placeOf chain (first + k)) :
    Contour.read (storeFrom chain first ws c) place = Contour.read c place := by
  induction ws generalizing first c with
  | nil => rfl
  | cons w ws ih =>
    have later : ∀ k, k < ws.length → place ≠ placeOf chain (first + 1 + k) := fun k below => by
      rw [Nat.add_assoc, Nat.add_comm 1 k]
      exact other (k + 1) (Nat.succ_lt_succ below)
    have head := other 0 (Nat.succ_pos _)
    rw [storeFrom, ih later, Contour.read_write, if_neg]
    exact head

theorem read_storeFrom_same {chain : List Nat} (distinct : chain.Nodup) {first k : Nat} {ws : List RawVertex}
    {c : List (Nat × Vertex)} (room : first + ws.length ≤ 32 * chain.length) (below : k < ws.length) :
    Contour.read (storeFrom chain first ws c) (placeOf chain (first + k)) = ⟨ws[k].u.toNat, ws[k].v.toNat⟩ := by
  induction ws generalizing first k c with
  | nil => cases below
  | cons w ws ih =>
    rw [List.length_cons] at room below
    cases k with
    | zero =>
      have apart : ∀ k, k < ws.length → placeOf chain (first + 0) ≠ placeOf chain (first + 1 + k) := by
        intro k inside same
        have := placeOf_injective distinct (by omega) (by omega) same
        omega
      rw [storeFrom, read_storeFrom_other apart, Contour.read_write, Nat.add_zero, if_pos rfl]
      rfl
    | succ k =>
      have shifted : first + (k + 1) = first + 1 + k := by omega
      rw [storeFrom, shifted, ih (by omega) (Nat.lt_of_succ_lt_succ below)]
      rfl

/-- The RANGE test of a record (R13). -/
theorem outOfRange_iff {vs : List RawVertex} :
    (vs.any fun w => Config.maxCoordinate < w.u.toNat || Config.maxCoordinate < w.v.toNat) = true ↔
      ∃ w ∈ vs, 2000000 < w.u.toNat ∨ 2000000 < w.v.toNat := by
  simp only [List.any_eq_true, Bool.or_eq_true, decide_eq_true_eq]
  rfl

section
variable {o : OpenOutline} {first : Nat} {vs : List RawVertex}

theorem streamError_order (other : first ≠ o.received) : streamError o first vs = some .order := if_pos other

variable (inOrder : first = o.received)
include inOrder

theorem streamError_over (many : o.expected < o.received + vs.length) : streamError o first vs = some .over :=
  (if_neg (not_not.mpr inOrder)).trans (if_pos many)

variable (room : o.received + vs.length ≤ o.expected)
include room

theorem streamError_range (far : ∃ w ∈ vs, 2000000 < w.u.toNat ∨ 2000000 < w.v.toNat) :
    streamError o first vs = some .range :=
  (if_neg (not_not.mpr inOrder)).trans ((if_neg (Nat.not_lt.mpr room)).trans (if_pos (outOfRange_iff.mpr far)))

theorem streamError_none (near : ∀ w ∈ vs, w.u.toNat ≤ 2000000 ∧ w.v.toNat ≤ 2000000) :
    streamError o first vs = none := by
  have inRange : ¬∃ w ∈ vs, 2000000 < w.u.toNat ∨ 2000000 < w.v.toNat := by
    rintro ⟨w, within, far⟩
    have := near w within
    omega
  exact (if_neg (not_not.mpr inOrder)).trans
    ((if_neg (Nat.not_lt.mpr room)).trans (if_neg (outOfRange_iff.not.mpr inRange)))

end

theorem stream_latched {st : PanelStore} {o : OpenOutline} {first : Nat} {vs : List RawVertex} {e : LoadError}
    (clear : o.error = none) (fails : streamError o first vs = some e) :
    st.stream o first vs = { st with loader := some { o with error := some (e, first) } } := by
  unfold PanelStore.stream
  rw [clear, fails]
  rfl

theorem stream_stored {st : PanelStore} {o : OpenOutline} {first : Nat} {vs : List RawVertex} (clear : o.error = none)
    (passes : streamError o first vs = none) : st.stream o first vs = { st with
      loader := some { o with received := o.received + vs.length }
      contour := storeFrom (st.panels.get o.slot).chain first vs st.contour } := by
  unfold PanelStore.stream
  rw [clear, passes]
  rfl

/-- Settles O20. -/
theorem pointsAreStored : Obligations.PointsAreStored := by
  constructor
  · intro s tag first vertices o ready least most isOpen clear inOrder room near distinct chain
    have streamed := exec_points_open (tag := tag) (first := first) ready least most isOpen
    rw [stream_stored clear (streamError_none inOrder room near)] at streamed
    exact ⟨_, streamed, rfl, fun k below => read_storeFrom_same distinct (by omega) below,
      fun place other => read_storeFrom_other other⟩
  · intro s tag first vertices ready
    refine ⟨fun outside => ?_, fun least most =>
      ⟨fun closed => ?_, fun o isOpen latched => ?_, fun o isOpen clear => ?_⟩⟩
    · have wrong : (Instr.points tag first vertices).wellFormed = false := by
        rw [← Bool.not_eq_true, points_wellFormed_iff]
        omega
      exact request_wrongLength ready wrong rfl
    · have run : runPoints tag first vertices s = s.queueReply 0x11 tag .sequence [7, 0, 0, 0, 0] none := by
        unfold runPoints
        rw [closed]
        rfl
      rw [exec_points ready least most, run]
      exact congrArg Host.Outcome.next (close_rest _ ready.1)
    · have same : s.store.stream o first.toNat vertices = s.store :=
        if_pos (Option.isSome_iff_ne_none.mpr latched)
      rw [exec_points_open ready least most isOpen, same]
      rfl
    · intro latches
      have latch {e : LoadError} (fails : streamError o first.toNat vertices = some e) : latches e := by
        have streamed := exec_points_open (tag := tag) (first := first) ready least most isOpen
        rw [stream_latched clear fails] at streamed
        exact streamed
      exact ⟨fun other => latch (streamError_order other), fun inOrder many => latch (streamError_over inOrder many),
        fun inOrder room far => latch (streamError_range inOrder room far)⟩

/-! ### CLOSE_OUTLINE -/

@[simp] theorem length_vertices (st : PanelStore) (chain : List Nat) (n : Nat) : (st.vertices chain n).length = n := by
  simp [PanelStore.vertices]

theorem degenerateAt_none {vs : List Vertex} (sound : ∀ i < vs.length, vs[i]? ≠ vs[(i + 1) % vs.length]?) :
    degenerateAt vs = none := by
  unfold degenerateAt
  rw [List.find?_range_eq_none]
  intro i below
  simpa using sound i below

theorem degenerateAt_some {vs : List Vertex} {i : Nat} (below : i < vs.length)
    (same : vs[i]? = vs[(i + 1) % vs.length]?) (first : ∀ j < i, vs[j]? ≠ vs[(j + 1) % vs.length]?) :
    degenerateAt vs = some i := by
  unfold degenerateAt
  rw [List.find?_range_eq_some]
  refine ⟨by simpa using same, List.mem_range.mpr below, fun j before => ?_⟩
  simpa using first j before

/-- The least value over a list, as the bounding box takes it (R4). -/
theorem foldl_min_le (f : Vertex → Nat) (l : List Vertex) (m : Nat) :
    (l.foldl (fun m w => min m (f w)) m ≤ m) ∧ ∀ w ∈ l, l.foldl (fun m w => min m (f w)) m ≤ f w := by
  induction l generalizing m with
  | nil => exact ⟨Nat.le_refl _, fun w within => (List.not_mem_nil within).elim⟩
  | cons a l ih =>
    obtain ⟨start, rest⟩ := ih (min m (f a))
    refine ⟨start.trans (Nat.min_le_left ..), fun w within => ?_⟩
    rcases List.mem_cons.mp within with rfl | later
    · exact start.trans (Nat.min_le_right ..)
    · exact rest w later

theorem foldl_min_mem (f : Vertex → Nat) (l : List Vertex) (m : Nat) :
    l.foldl (fun m w => min m (f w)) m = m ∨ ∃ w ∈ l, l.foldl (fun m w => min m (f w)) m = f w := by
  induction l generalizing m with
  | nil => exact .inl rfl
  | cons a l ih =>
    rcases ih (min m (f a)) with same | ⟨w, within, same⟩
    · rcases Nat.le_total m (f a) with h | h
      · exact .inl (by rw [List.foldl_cons, same, Nat.min_eq_left h])
      · exact .inr ⟨a, List.mem_cons_self .., by rw [List.foldl_cons, same, Nat.min_eq_right h]⟩
    · exact .inr ⟨w, List.mem_cons_of_mem _ within, same⟩

/-- The least coordinate of the bounding box (R4). -/
def leastBy (f : Vertex → Nat) : List Vertex → Nat
  | [] => 0
  | a :: l => l.foldl (fun m w => min m (f w)) (f a)

theorem bboxOf_eq (vs : List Vertex) : bboxOf vs = ⟨leastBy (·.u) vs, leastBy (·.v) vs,
    maxOf (vs.map (·.u)) - leastBy (·.u) vs, maxOf (vs.map (·.v)) - leastBy (·.v) vs⟩ := by
  cases vs <;> rfl

theorem leastBy_eq {f : Vertex → Nat} {vs : List Vertex} {m : Nat} (attained : ∃ w ∈ vs, f w = m)
    (least : ∀ w ∈ vs, m ≤ f w) : leastBy f vs = m := by
  obtain ⟨w, within, rfl⟩ := attained
  cases vs with
  | nil => exact (List.not_mem_nil within).elim
  | cons a l =>
    obtain ⟨start, rest⟩ := foldl_min_le f l (f a)
    have upper : leastBy f (a :: l) ≤ f w := by
      rcases List.mem_cons.mp within with rfl | later
      · exact start
      · exact rest w later
    refine Nat.le_antisymm upper ?_
    rcases foldl_min_mem f l (f a) with same | ⟨x, later, same⟩
    · exact (least a (List.mem_cons_self ..)).trans same.ge
    · exact (least x (List.mem_cons_of_mem _ later)).trans same.ge

theorem maxOf_eq {l : List Nat} {m : Nat} (attained : m ∈ l) (greatest : ∀ a ∈ l, a ≤ m) : maxOf l = m :=
  Nat.le_antisymm (greatest _ (maxOf_mem l (List.ne_nil_of_mem attained))) (le_maxOf l m attained)

/-- One direction of the bounding box. -/
theorem extent_eq {f : Vertex → Nat} {vs : List Vertex} {least width : Nat} (low : ∃ w ∈ vs, f w = least)
    (high : ∃ w ∈ vs, f w = least + width) (inside : ∀ w ∈ vs, least ≤ f w ∧ f w ≤ least + width) :
    leastBy f vs = least ∧ maxOf (vs.map f) - leastBy f vs = width := by
  have bottom := leastBy_eq low fun w within => (inside w within).1
  have top : maxOf (vs.map f) = least + width := by
    refine maxOf_eq (List.mem_map.mpr high) fun a within => ?_
    obtain ⟨w, inList, rfl⟩ := List.mem_map.mp within
    exact (inside w inList).2
  rw [bottom, top, Nat.add_sub_cancel_left]
  exact ⟨rfl, rfl⟩

/-- The bounding box is the one box that the vertices fill (R4). -/
theorem bboxOf_unique {vs : List Vertex} {b : BBox} (left : ∃ w ∈ vs, w.u = b.minU) (bottom : ∃ w ∈ vs, w.v = b.minV)
    (right : ∃ w ∈ vs, w.u = b.minU + b.width) (top : ∃ w ∈ vs, w.v = b.minV + b.height)
    (inside : ∀ w ∈ vs, b.minU ≤ w.u ∧ w.u ≤ b.minU + b.width ∧ b.minV ≤ w.v ∧ w.v ≤ b.minV + b.height) :
    bboxOf vs = b := by
  obtain ⟨minU, width⟩ := extent_eq (f := (·.u)) left right fun w within =>
    ⟨(inside w within).1, (inside w within).2.1⟩
  obtain ⟨minV, height⟩ := extent_eq (f := (·.v)) bottom top fun w within => (inside w within).2.2
  rw [bboxOf_eq, width, height, minU, minV]

/-- An outline with one coordinate throughout is flat (R15). -/
theorem extent_flat {f : Vertex → Nat} {vs : List Vertex} (flat : ∀ v ∈ vs, ∀ w ∈ vs, f v = f w) :
    maxOf (vs.map f) - leastBy f vs = 0 := by
  cases vs with
  | nil => rfl
  | cons a l =>
    have first : a ∈ a :: l := List.mem_cons_self ..
    exact (extent_eq (width := 0) ⟨a, first, rfl⟩ ⟨a, first, rfl⟩ fun w within =>
      ⟨(flat a first w within).le, (flat w within a first).le⟩).2

theorem actCloseOutline_notOpen {s : State} (closed : s.store.loader = none) :
    actCloseOutline s = { s.answer .sequence with data := [7, 0, 0, 0, 0] } := by
  unfold actCloseOutline
  rw [closed]
  rfl

section
variable {s : State} {o : OpenOutline} (isOpen : s.store.loader = some o)
include isOpen

theorem actCloseOutline_latched {e : LoadError} {index : Nat} (latched : o.error = some (e, index)) :
    actCloseOutline s = failClose o .sequence e.code index s := by
  unfold actCloseOutline
  rw [isOpen]
  dsimp only
  rw [latched]

variable (clear : o.error = none)
include clear

theorem actCloseOutline_short (short : o.received ≠ o.expected) :
    actCloseOutline s = failClose o .sequence 4 o.received s := by
  unfold actCloseOutline
  rw [isOpen]
  dsimp only
  rw [clear]
  exact if_pos short

variable (whole : o.received = o.expected)
include whole

theorem actCloseOutline_repeated {i : Nat}
    (repeated : degenerateAt (s.store.vertices (s.panel o.slot).chain o.expected) = some i) :
    actCloseOutline s = failClose o .badArg 5 i s := by
  unfold actCloseOutline
  rw [isOpen]
  dsimp only
  rw [clear, repeated]
  exact if_neg (not_not.mpr whole)

variable (sound : degenerateAt (s.store.vertices (s.panel o.slot).chain o.expected) = none) {b : BBox}
  (box : bboxOf (s.store.vertices (s.panel o.slot).chain o.expected) = b)
include sound box

theorem actCloseOutline_flat (flat : b.width = 0 ∨ b.height = 0) : actCloseOutline s = failClose o .badArg 6 0 s := by
  unfold actCloseOutline
  rw [isOpen]
  dsimp only
  rw [clear, sound, box]
  exact (if_neg (not_not.mpr whole)).trans (if_pos flat)

theorem actCloseOutline_loads (wide : 0 < b.width) (high : 0 < b.height) : actCloseOutline s =
    (s.withStore { s.store.setPanel o.slot { s.panel o.slot with
      state := .loaded, lock := .free, vertexCount := o.expected, bbox := some b } with loader := none }).doneWith
      (0 :: be32 b.minU ++ be32 b.minV ++ be32 b.width ++ be32 b.height ++
        be32 (b.width + 2 * (s.panel o.slot).bleed) ++ be32 (b.height + 2 * (s.panel o.slot).bleed) ++
        be16 s.store.free.length) := by
  have notFlat : ¬(b.width = 0 ∨ b.height = 0) := by omega
  unfold actCloseOutline
  rw [isOpen]
  dsimp only
  rw [clear, sound, box]
  exact (if_neg (not_not.mpr whole)).trans (if_neg notFlat)

end

/-- A close that fails between commands (R15). -/
theorem exec_failClose {s : State} {tag : Byte} {o : OpenOutline} {status : Status} {kind index : Nat} (ready : s.ready)
    (act : actCloseOutline s = failClose o status kind index s) : exec (.closeOutline tag) s =
      .next ({ s with store := { s.store with
        panels := s.store.panels.set o.slot Panel.emptyRecord
        free := s.store.free ++ (s.panel o.slot).chain
        loader := none } }.queueReply 0x12 tag status
          (u8 kind :: be16 index ++ be16 o.received ++
            be16 (s.store.free.length + (s.panel o.slot).chain.length)) none) := by
  have ⟨⟨settled, quiet⟩, _⟩ := ready
  have answered := request_answered (i := .closeOutline tag) (k := 0x12) (t := tag) ready rfl act settled quiet
  have count : s.store.free.length + (s.panel o.slot).chain.length = (s.store.abandon o).free.length :=
    (length_free_abandon ..).symm
  rw [count]
  exact answered

/-- Settles O21. -/
theorem closeOutlineLoads : Obligations.CloseOutlineLoads := by
  constructor
  · intro s tag o ready isOpen clear whole p vs sound b wide high left bottom right top inside
    have ⟨⟨settled, quiet⟩, _⟩ := ready
    have length : vs.length = o.expected := length_vertices ..
    have act := actCloseOutline_loads isOpen clear whole (degenerateAt_none (by rw [length]; exact sound))
      (bboxOf_unique left bottom right top inside) wide high
    exact request_answered ready rfl act settled quiet
  · intro s tag ready
    have ⟨⟨settled, quiet⟩, _⟩ := ready
    refine ⟨fun closed => request_answered ready rfl (actCloseOutline_notOpen closed) settled quiet, fun o isOpen => ?_⟩
    intro vs fails
    have length : vs.length = o.expected := length_vertices ..
    refine ⟨fun e index latched => ?_, fun clear short => ?_, fun clear whole i below same first => ?_,
      fun clear whole sound flat => ?_⟩
    · have failed := exec_failClose (tag := tag) ready (actCloseOutline_latched isOpen latched)
      cases e <;> exact failed
    · exact exec_failClose ready (actCloseOutline_short isOpen clear short)
    · rw [← length] at below same first
      exact exec_failClose ready (actCloseOutline_repeated isOpen clear whole (degenerateAt_some below same first))
    · have noRepeat := degenerateAt_none (vs := vs) (by rw [length]; exact sound)
      have thin : (bboxOf vs).width = 0 ∨ (bboxOf vs).height = 0 := by
        rw [bboxOf_eq]
        exact flat.imp extent_flat extent_flat
      exact exec_failClose ready (actCloseOutline_flat isOpen clear whole noRepeat rfl thin)

/-! ### SET_PANEL -/

section
variable {s : State} {slot tool flags order passes : Byte} {bleed : Half} {label : List Byte}

theorem actSetPanel_running (running : s.nest.run ≠ none) :
    actSetPanel slot bleed tool flags order passes label s = s.answer .nestBusy :=
  if_pos (nestRunning_iff.mpr running)

variable (idle : s.nest.run = none)
include idle

theorem actSetPanel_badArg (wrong : 95 < slot.toNat ∨ settingsOf bleed tool flags order passes label = none) :
    actSetPanel slot bleed tool flags order passes label s = s.answer .badArg := by
  unfold actSetPanel
  rw [if_neg (not_nestRunning idle)]
  rcases wrong with above | unset
  · rw [slotOf_above above]
  · rw [unset]
    cases slotOf slot <;> rfl

/-- Checks 3 to 6 of R6 and the effect. -/
theorem actSetPanel_slot {i : Slot} {g : Settings} (named : slot.toNat = i.val)
    (settings : settingsOf bleed tool flags order passes label = some g) :
    actSetPanel slot bleed tool flags order passes label s =
      if (s.panel i).state = .empty ∨ (s.panel i).state = .loading then s.answer .refusedState
      else if (s.panel i).lock = .committed then s.answer .locked
      else if (s.panel i).state = .placed ∧
        (g.bleed ≠ (s.panel i).bleed ∨ g.rotateOk ≠ (s.panel i).rotateOk) then s.answer .refusedState
      else if g = (s.panel i).settings then s.answer .noChange
      else (s.setPanel i ((s.panel i).withSettings g)).doneWith (panelEntry i.val ((s.panel i).withSettings g)) := by
  unfold actSetPanel
  rw [if_neg (not_nestRunning idle), slotOf_eq_some named, settings]

end

/-- Settles O23. -/
theorem setPanelWritesSettings : Obligations.SetPanelWritesSettings := by
  intro s tag slot bleed tool flags order passes label ready short answer
  have ⟨⟨settled, quiet⟩, _⟩ := ready
  have wf := setPanel_wellFormed (tag := tag) (slot := slot) (bleed := bleed) (tool := tool) (flags := flags)
    (order := order) (passes := passes) short
  have refused {status : Status}
      (act : actSetPanel slot bleed tool flags order passes label s = s.answer status) : answer status :=
    request_unchanged ready wf act
  refine ⟨fun running => refused (actSetPanel_running running), fun idle =>
    ⟨fun wrong => refused (actSetPanel_badArg idle wrong), fun i g named settings => ?_⟩⟩
  intro p moved
  have act := actSetPanel_slot idle named settings
  refine ⟨fun unloaded => refused (act.trans (if_pos unloaded)), fun notEmpty notLoading => ?_⟩
  rw [if_neg (not_or.mpr ⟨notEmpty, notLoading⟩)] at act
  refine ⟨fun committed => refused (act.trans (if_pos committed)), fun free away => ?_, fun free stays same => ?_,
    fun free stays other => ?_⟩
  all_goals rw [if_neg free] at act
  · exact refused (act.trans (if_pos away))
  · exact refused (act.trans ((if_neg stays).trans (if_pos same)))
  · exact request_answered ready wf (act.trans ((if_neg stays).trans (if_neg other))) settled quiet

/-! ### DELETE_PANEL -/

/-- The row count of the layout applied to the marks (R47). -/
def State.applyRows (s : State) : State :=
  s.withMarks (s.marks.applyRowCount (rowCountOf s.nest.params s.store.panels.cells))

/-- A row count that leaves a readying its rows is applied to the marks and changes nothing else (R47, R52). -/
theorem recomputeRows_keeps {s : State} (keeps : s.keepsSpan (rowCountOf s.nest.params s.store.panels.cells)) :
    s.recomputeRows = s.applyRows := by
  have stays : ¬(s.marks.span.isSome && s.applyRows.marks.span.isNone && s.applyRows.inReadying &&
      !s.applyRows.cycle.stopPending) = true := by
    simp only [Bool.and_eq_true, State.inReadying, decide_eq_true_eq]
    rintro ⟨⟨⟨had, gone⟩, measuring, _⟩, _⟩
    exact keeps measuring (Option.isSome_iff_ne_none.mp had) (Option.isNone_iff_eq_none.mp gone)
  exact if_neg stays

/-- Checks 3 and 4 of R7 and the effect. -/
theorem actDeletePanel_slot {s : State} {slot : Byte} {i : Slot} (idle : s.nest.run = none)
    (named : slot.toNat = i.val) : actDeletePanel slot s =
      if (s.panel i).state = .empty ∨ (s.panel i).state = .loading then s.answer .refusedState
      else if (s.panel i).lock = .committed then s.answer .locked
      else (if (s.panel i).state = .placed then (s.withStore (s.store.emptySlot i)).recomputeRows
          else s.withStore (s.store.emptySlot i)).doneWith
        (be16 (s.panel i).chain.length ++ be16 (s.store.free.length + (s.panel i).chain.length)) := by
  unfold actDeletePanel
  rw [if_neg (not_nestRunning idle), slotOf_eq_some named, ← List.length_append]
  rfl

/-- Settles O24. -/
theorem deletePanelEmpties : Obligations.DeletePanelEmpties := by
  intro s tag slot ready answer
  have ⟨⟨settled, quiet⟩, _⟩ := ready
  have refused {status : Status} (act : actDeletePanel slot s = s.answer status) : answer status :=
    request_unchanged ready rfl act
  refine ⟨fun running => refused (if_pos (nestRunning_iff.mpr running)), fun idle above => refused ?_,
    fun i idle named => ?_⟩
  · unfold actDeletePanel
    rw [if_neg (not_nestRunning idle), slotOf_above above]
  · intro p emptied data
    have act := actDeletePanel_slot idle named
    have standing (notEmpty : p.state ≠ .empty) (notLoading : p.state ≠ .loading) (free : p.lock ≠ .committed) :=
      act.trans ((if_neg (not_or.mpr ⟨notEmpty, notLoading⟩)).trans (if_neg free))
    refine ⟨fun unloaded => refused (act.trans (if_pos unloaded)), fun notEmpty notLoading committed =>
      refused (act.trans ((if_neg (not_or.mpr ⟨notEmpty, notLoading⟩)).trans (if_pos committed))),
      fun loaded free => ?_, fun placed free keeps => ?_⟩
    · have gone := standing (by rw [loaded]; decide) (by rw [loaded]; decide) free
      rw [if_neg (by rw [show (s.panel i).state = .loaded from loaded]; decide)] at gone
      exact request_answered ready rfl gone settled quiet
    · have gone := standing (by rw [placed]; decide) (by rw [placed]; decide) free
      rw [if_pos placed, recomputeRows_keeps keeps] at gone
      exact request_answered ready rfl gone settled quiet

end Sys2Proof.Machine

/-! The skyline changed over a range, the candidates and the choice of a placing (R26, R27, R32 to R34). -/

namespace Sys2Proof.Machine

/-! ### Segments side by side -/

/-- The segments cover [a, b) one after another, each at least 1 wide; neighbours may be of equal height. -/
def tiles (b : Nat) : Nat → List Seg → Prop
  | a, [] => a = b
  | a, g :: l => g.x = a ∧ 0 < g.width ∧ tiles b (a + g.width) l

theorem tiles_of_coversRoll {a b : Nat} {l : List Seg} (h : coversRoll a b l) : tiles b a l := by
  induction l generalizing a with
  | nil => exact h
  | cons g l ih =>
    obtain ⟨start, wide, _, rest⟩ := h
    exact ⟨start, wide, ih rest⟩

theorem tiles_append {a b c : Nat} {l m : List Seg} (first : tiles b a l) (second : tiles c b m) :
    tiles c a (l ++ m) := by
  induction l generalizing a with
  | nil =>
    obtain rfl : a = b := first
    exact second
  | cons g l ih =>
    obtain ⟨start, wide, rest⟩ := first
    exact ⟨start, wide, ih rest⟩

theorem le_of_tiles {a b : Nat} {l : List Seg} (h : tiles b a l) : a ≤ b := by
  induction l generalizing a with
  | nil => exact Nat.le_of_eq h
  | cons g l ih =>
    obtain ⟨_, _, rest⟩ := h
    exact (Nat.le_add_right ..).trans (ih rest)

/-- A point lies in a segment. -/
def Seg.holds (g : Seg) (x : Nat) : Prop := g.x ≤ x ∧ x < g.x + g.width

theorem heightAt_cons_inside {g : Seg} {x : Nat} (inside : g.holds x) (l : List Seg) :
    heightAt (g :: l) x = some g.height := by
  obtain ⟨left, right⟩ := inside
  simp [heightAt, left, right]

theorem heightAt_cons_outside {g : Seg} {x : Nat} (outside : ¬g.holds x) (l : List Seg) :
    heightAt (g :: l) x = heightAt l x := by
  have misses : (decide (g.x ≤ x) && decide (x < g.x + g.width)) = false := by
    rw [← Bool.not_eq_true, Bool.and_eq_true, decide_eq_true_eq, decide_eq_true_eq]
    exact outside
  unfold heightAt
  rw [List.find?_cons, misses]

theorem heightAt_append (l m : List Seg) (x : Nat) : heightAt (l ++ m) x = (heightAt l x).or (heightAt m x) := by
  unfold heightAt
  rw [List.find?_append, Option.map_or]

/-! ### Merging equal neighbours -/

theorem coversRoll_mergeSeg {b : Nat} {g : Seg} {l : List Seg} (wide : 0 < g.width)
    (rest : coversRoll (g.x + g.width) b l) : coversRoll g.x b (mergeSeg g l) := by
  cases l with
  | nil => exact ⟨rfl, wide, fun h none => (nomatch none), rest⟩
  | cons h t =>
    simp only [mergeSeg]
    obtain ⟨start, broad, apart, later⟩ := rest
    split
    · rename_i same
      refine ⟨rfl, Nat.add_pos_left wide _, fun k first => ?_, ?_⟩
      · rw [same]
        exact apart k first
      · rw [← Nat.add_assoc]
        exact later
    · rename_i differ
      refine ⟨rfl, wide, fun k first => ?_, start, broad, apart, later⟩
      obtain rfl : h = k := Option.some.inj first
      exact Ne.symm differ

theorem heightAt_mergeSeg {b : Nat} {g : Seg} {l : List Seg} (rest : coversRoll (g.x + g.width) b l) (x : Nat) :
    heightAt (mergeSeg g l) x = heightAt (g :: l) x := by
  cases l with
  | nil => rfl
  | cons h t =>
    simp only [mergeSeg]
    obtain ⟨start, _⟩ := rest
    split
    · rename_i same
      have both : Seg.holds ⟨g.x, g.width + h.width, g.height⟩ x ↔ g.holds x ∨ h.holds x := by
        simp only [Seg.holds]
        omega
      by_cases inFirst : g.holds x
      · rw [heightAt_cons_inside inFirst, heightAt_cons_inside (both.mpr (.inl inFirst))]
      · rw [heightAt_cons_outside inFirst]
        by_cases inSecond : h.holds x
        · rw [heightAt_cons_inside inSecond, heightAt_cons_inside (both.mpr (.inr inSecond)), same]
        · rw [heightAt_cons_outside inSecond, heightAt_cons_outside (both.not.mpr (not_or.mpr ⟨inFirst, inSecond⟩))]
    · rfl

theorem length_mergeSeg_le (g : Seg) (l : List Seg) : (mergeSeg g l).length ≤ l.length + 1 := by
  cases l with
  | nil => exact Nat.le_refl _
  | cons h t =>
    simp only [mergeSeg]
    split
    · exact Nat.le_succ _
    · exact Nat.le_refl _

theorem length_mergeSegs_le (l : List Seg) : (mergeSegs l).length ≤ l.length := by
  induction l with
  | nil => exact Nat.le_refl _
  | cons g l ih => exact (length_mergeSeg_le g (mergeSegs l)).trans (Nat.succ_le_succ ih)

/-- Merging equal neighbours gives the form of a skyline and keeps the heights (R27). -/
theorem mergeSegs_spec {a b : Nat} {l : List Seg} (h : tiles b a l) :
    coversRoll a b (mergeSegs l) ∧ ∀ x, heightAt (mergeSegs l) x = heightAt l x := by
  induction l generalizing a with
  | nil => exact ⟨h, fun _ => rfl⟩
  | cons g l ih =>
    obtain ⟨rfl, wide, rest⟩ := h
    obtain ⟨covers, heights⟩ := ih rest
    refine ⟨coversRoll_mergeSeg wide covers, fun x => (heightAt_mergeSeg covers x).trans ?_⟩
    by_cases inside : g.holds x
    · rw [heightAt_cons_inside inside, heightAt_cons_inside inside]
    · rw [heightAt_cons_outside inside, heightAt_cons_outside inside, heights]

/-! ### A segment cut at the ends of a range -/

/-- A list of the segment [x, y) of a height, empty when it would have no width. -/
def segIf (x y height : Nat) : List Seg := if x < y then [⟨x, y - x, height⟩] else []

theorem tiles_segIf {x y height : Nat} (h : x ≤ y) : tiles y x (segIf x y height) := by
  unfold segIf
  split
  · rename_i wide
    exact ⟨rfl, Nat.sub_pos_of_lt wide, Nat.add_sub_cancel' h⟩
  · show x = y
    omega

theorem heightAt_segIf (x y height z : Nat) :
    heightAt (segIf x y height) z = if x ≤ z ∧ z < y then some height else none := by
  unfold segIf
  split
  · have inside : Seg.holds ⟨x, y - x, height⟩ z ↔ x ≤ z ∧ z < y := by
      simp only [Seg.holds]
      omega
    by_cases holds : Seg.holds ⟨x, y - x, height⟩ z
    · rw [heightAt_cons_inside holds, if_pos (inside.mp holds)]
    · rw [heightAt_cons_outside holds, if_neg (inside.not.mp holds)]
      rfl
  · rw [if_neg (by omega)]
    rfl

/-- The three pieces of a segment: before the range, within it, behind it. -/
theorem change_eq {a b : Nat} (range : a < b) (f : Nat → Nat) {g : Seg} (wide : 0 < g.width) : g.change a b f =
    segIf g.x (max g.x (min a (g.x + g.width))) g.height ++
      (segIf (max g.x (min a (g.x + g.width))) (min (g.x + g.width) (max g.x b)) (f g.height) ++
        segIf (min (g.x + g.width) (max g.x b)) (g.x + g.width) g.height) := by
  have ends {x y : Nat} (p : Prop) [Decidable p] (same : p ↔ x < y) {k : Nat} {u v : Nat} (first : p → u = x)
      (last : p → v = y - x) : (if p then [(⟨u, v, k⟩ : Seg)] else []) = segIf x y k := by
    unfold segIf
    split
    · rename_i h
      rw [if_pos (same.mp h), first h, last h]
    · rename_i h
      rw [if_neg (same.not.mp h)]
  unfold Seg.change
  rw [List.append_assoc]
  congr 1
  · exact ends _ (by omega) (fun _ => rfl) (fun _ => by omega)
  · congr 1
    · exact ends _ (by omega) (fun _ => by omega) (fun _ => by omega)
    · exact ends _ (by omega) (fun _ => by omega) (fun _ => by omega)

section
variable {a b : Nat} (range : a < b) (f : Nat → Nat)
include range

theorem tiles_change {g : Seg} (wide : 0 < g.width) : tiles (g.x + g.width) g.x (g.change a b f) := by
  rw [change_eq range f wide]
  exact tiles_append (tiles_segIf (by omega)) (tiles_append (tiles_segIf (by omega)) (tiles_segIf (by omega)))

theorem heightAt_change {g : Seg} (wide : 0 < g.width) (x : Nat) : heightAt (g.change a b f) x =
    if g.x ≤ x ∧ x < g.x + g.width then some (if a ≤ x ∧ x < b then f g.height else g.height) else none := by
  rw [change_eq range f wide, heightAt_append, heightAt_append, heightAt_segIf, heightAt_segIf, heightAt_segIf]
  by_cases inside : g.x ≤ x ∧ x < g.x + g.width
  · rw [if_pos inside]
    rcases Nat.lt_or_ge x a with before | reached
    · rw [if_pos (by omega), if_neg (by omega : ¬(a ≤ x ∧ x < b))]
      rfl
    · rw [if_neg (by omega)]
      rcases Nat.lt_or_ge x b with within | behind
      · rw [if_pos (c := _ ∧ _) (by omega), if_pos (c := a ≤ x ∧ x < b) ⟨reached, within⟩]
        rfl
      · rw [if_neg (by omega), if_pos (by omega), if_neg (by omega : ¬(a ≤ x ∧ x < b))]
        rfl
  · rw [if_neg inside, if_neg (by omega), if_neg (by omega), if_neg (by omega)]
    rfl

theorem length_change_le {g : Seg} (wide : 0 < g.width) : (g.change a b f).length ≤
    1 + (if g.x < a ∧ a < g.x + g.width then 1 else 0) + if g.x < b ∧ b < g.x + g.width then 1 else 0 := by
  have count (x y k : Nat) : (segIf x y k).length = if x < y then 1 else 0 := by
    unfold segIf
    split <;> rfl
  rw [change_eq range f wide, List.length_append, List.length_append, count, count, count]
  split_ifs <;> omega

theorem tiles_flatMap_change {l : List Seg} {x y : Nat} (h : tiles y x l) :
    tiles y x (l.flatMap (Seg.change a b f)) := by
  induction l generalizing x with
  | nil => exact h
  | cons g l ih =>
    obtain ⟨rfl, wide, rest⟩ := h
    exact tiles_append (tiles_change range f wide) (ih rest)

theorem heightAt_flatMap_change {l : List Seg} {x y : Nat} (h : tiles y x l) (z : Nat) :
    heightAt (l.flatMap (Seg.change a b f)) z =
      (heightAt l z).map fun old => if a ≤ z ∧ z < b then f old else old := by
  induction l generalizing x with
  | nil => rfl
  | cons g l ih =>
    obtain ⟨rfl, wide, rest⟩ := h
    rw [List.flatMap_cons, heightAt_append, heightAt_change range f wide, ih rest]
    by_cases inside : g.holds z
    · rw [heightAt_cons_inside inside, if_pos (c := _ ∧ _) inside]
      rfl
    · rw [heightAt_cons_outside inside, if_neg (c := _ ∧ _) inside]
      rfl

/-- A range cuts at most two segments. -/
theorem length_flatMap_change_le {l : List Seg} {x y : Nat} (h : tiles y x l) :
    (l.flatMap (Seg.change a b f)).length ≤ l.length + (if x < a then 1 else 0) + if x < b then 1 else 0 := by
  induction l generalizing x with
  | nil => exact Nat.zero_le _
  | cons g l ih =>
    obtain ⟨rfl, wide, rest⟩ := h
    have pieces := length_change_le range f wide
    have later := ih rest
    rw [List.flatMap_cons, List.length_append, List.length_cons]
    split_ifs at pieces later ⊢ <;> omega

/-- A skyline changed over a range keeps its form, changes the heights within the range, and grows by at most two
segments (R27). -/
theorem changeSkyline_spec {l : List Seg} {xl xr : Nat} (covers : coversRoll xl xr l) :
    coversRoll xl xr (changeSkyline a b f l) ∧ (changeSkyline a b f l).length ≤ l.length + 2 ∧
      ∀ x, heightAt (changeSkyline a b f l) x =
        (heightAt l x).map fun old => if a ≤ x ∧ x < b then f old else old := by
  have cut := tiles_flatMap_change range f (tiles_of_coversRoll covers)
  obtain ⟨form, heights⟩ := mergeSegs_spec cut
  refine ⟨form, (length_mergeSegs_le _).trans ?_, fun x => (heights x).trans
    (heightAt_flatMap_change range f (tiles_of_coversRoll covers) x)⟩
  refine (length_flatMap_change_le range f (tiles_of_coversRoll covers)).trans ?_
  split_ifs <;> omega

end

/-- A covered point has a height. -/
theorem exists_heightAt {l : List Seg} {xl xr x : Nat} (covers : coversRoll xl xr l) (left : xl ≤ x) (right : x < xr) :
    ∃ h, heightAt l x = some h := by
  obtain ⟨g, within, start, stop⟩ := exists_seg l xl xr covers x left right
  exact ⟨g.height, heightAt_of_mem l xl xr covers g within x start stop⟩

/-- Settles O25: raising and setting are changes over a range. -/
theorem skylineRaisedAndSet : Obligations.SkylineRaisedAndSet := by
  intro l xl xr a b h covers left range right
  obtain ⟨raised, raisedLength, raisedHeight⟩ := changeSkyline_spec range (fun g => max g h) covers
  obtain ⟨set, setLength, setHeight⟩ := changeSkyline_spec range (fun _ => h) covers
  refine ⟨raised, set, raisedLength, setLength, fun x from_ to_ => ?_⟩
  obtain ⟨old, height⟩ := exists_heightAt covers from_ to_
  refine ⟨old, height, (raisedHeight x).trans ?_, (setHeight x).trans ?_⟩
  · rw [height]
    rfl
  · rw [height]
    rfl

/-! ### The candidates and the best of them -/

theorem mem_rotations {p : Panel} {r : Rotation} : r ∈ p.rotations ↔ r = .r0 ∨ p.rotateOk = true := by
  unfold Panel.rotations
  split
  · rename_i may
    exact ⟨fun _ => .inr may, fun _ => by cases r <;> simp⟩
  · rename_i fixed
    exact List.mem_singleton.trans ⟨.inl, fun h => h.resolve_right fixed⟩

theorem candidateAt_eq_some {lp : LayoutParams} {l : List Seg} {p : Panel} {r : Rotation} {g : Seg} {c : Candidate} :
    candidateAt lp l p r g = some c ↔
      c = ⟨heightOver l g.x (min (g.x + (p.ew r + lp.gap)) lp.xr) + p.eh r + lp.gap,
        ⟨g.x, heightOver l g.x (min (g.x + (p.ew r + lp.gap)) lp.xr), r⟩, p.ew r + lp.gap⟩ ∧
      g.x + p.ew r ≤ lp.xr ∧ heightOver l g.x (min (g.x + (p.ew r + lp.gap)) lp.xr) + p.eh r ≤ lp.ymax := by
  unfold candidateAt
  dsimp only
  split
  · rename_i fits
    exact ⟨fun h => ⟨(Option.some.inj h).symm, fits⟩, fun h => congrArg some h.1.symm⟩
  · rename_i tooLarge
    exact ⟨fun h => (nomatch h), fun h => absurd h.2 tooLarge⟩

theorem mem_candidates {lp : LayoutParams} {l : List Seg} {p : Panel} {c : Candidate} :
    c ∈ candidates lp l p ↔ ∃ r, (r = .r0 ∨ p.rotateOk = true) ∧ ∃ g ∈ l, candidateAt lp l p r g = some c := by
  simp only [candidates, List.mem_flatMap, List.mem_filterMap, mem_rotations]

/-- What the choice of R33 compares: the top, then x, then the rotation. -/
def Candidate.rank (c : Candidate) : Nat ×ₗ (Nat ×ₗ Nat) :=
  toLex (c.top, toLex (c.place.x, c.place.rotation.code))

theorem Candidate.better_iff {a b : Candidate} : a.better b = true ↔ a.rank < b.rank := by
  have turned : (a.place.rotation = .r0 ∧ b.place.rotation = .r90) ↔
      a.place.rotation.code < b.place.rotation.code := by
    cases a.place.rotation <;> cases b.place.rotation <;> decide
  simp only [better, rank, Prod.Lex.toLex_lt_toLex, ← turned, Bool.or_eq_true, Bool.and_eq_true, decide_eq_true_eq,
    and_assoc]

theorem Candidate.rank_le_iff {a b : Candidate} : a.rank ≤ b.rank ↔
    a.top < b.top ∨ (a.top = b.top ∧ (a.place.x < b.place.x ∨
      (a.place.x = b.place.x ∧ (a.place.rotation = .r0 ∨ b.place.rotation = .r90)))) := by
  have upright : (a.place.rotation = .r0 ∨ b.place.rotation = .r90) ↔
      a.place.rotation.code ≤ b.place.rotation.code := by
    cases a.place.rotation <;> cases b.place.rotation <;> decide
  simp only [rank, Prod.Lex.toLex_le_toLex, ← upright]

/-- The fold over the candidates ends at one of them that none comes before. -/
theorem foldl_better_spec (l : List Candidate) (c : Candidate) :
    (l.foldl (fun m d => if d.better m then d else m) c) ∈ c :: l ∧
      ∀ d ∈ c :: l, (l.foldl (fun m d => if d.better m then d else m) c).rank ≤ d.rank := by
  induction l generalizing c with
  | nil => exact ⟨List.mem_cons_self, fun d h => by rw [List.mem_singleton.mp h]; exact le_rfl⟩
  | cons e l ih =>
    rw [List.foldl_cons]
    split
    · rename_i better
      obtain ⟨member, least⟩ := ih e
      refine ⟨List.mem_cons_of_mem _ member, fun d h => ?_⟩
      rcases List.mem_cons.mp h with rfl | later
      · exact (least e List.mem_cons_self).trans (Candidate.better_iff.mp better).le
      · exact least d later
    · rename_i worse
      obtain ⟨member, least⟩ := ih c
      refine ⟨?_, fun d h => ?_⟩
      · rcases List.mem_cons.mp member with same | later
        · rw [same]
          exact List.mem_cons_self
        · exact List.mem_cons_of_mem _ (List.mem_cons_of_mem _ later)
      · rcases List.mem_cons.mp h with rfl | later
        · exact least d List.mem_cons_self
        · rcases List.mem_cons.mp later with rfl | last
          · exact (least c List.mem_cons_self).trans (not_lt.mp (Candidate.better_iff.not.mp worse))
          · exact least d (List.mem_cons_of_mem _ last)

theorem bestCandidate_spec {l : List Candidate} {c : Candidate} (h : c ∈ l) :
    ∃ best ∈ l, bestCandidate l = some best ∧ ∀ d ∈ l, best.rank ≤ d.rank := by
  cases l with
  | nil => exact absurd h List.not_mem_nil
  | cons e l =>
    obtain ⟨member, least⟩ := foldl_better_spec l e
    exact ⟨_, member, rfl, least⟩

/-! ### The outcome of a placing -/

theorem placeOne_best {lp : LayoutParams} {l : List Seg} {p : Panel} {c : Candidate}
    (h : bestCandidate (candidates lp l p) = some c) : placeOne lp l p =
      (.placed c.place, setSkyline c.place.x (min (c.place.x + c.footW) lp.xr) c.top l) := by
  unfold placeOne
  rw [h]

theorem placeOne_none {lp : LayoutParams} {l : List Seg} {p : Panel} (h : candidates lp l p = []) :
    placeOne lp l p = (whyUnplaced lp p, l) := by
  unfold placeOne
  rw [h]
  rfl

/-- UNFIT is a panel wider than the usable width at each rotation allowed to it (R34). -/
theorem whyUnplaced_eq (lp : LayoutParams) (p : Panel) : whyUnplaced lp p =
    if lp.xr - lp.xl < p.ew .r0 ∧ (p.rotateOk = true → lp.xr - lp.xl < p.ew .r90) then .unfit else .noRoom := by
  unfold whyUnplaced
  refine if_congr ?_ rfl rfl
  rw [List.all_eq_true]
  simp only [decide_eq_true_eq, mem_rotations]
  constructor
  · exact fun each => ⟨each .r0 (.inl rfl), fun may => each .r90 (.inr may)⟩
  · rintro ⟨upright, turned⟩ r allowed
    cases r with
    | r0 => exact upright
    | r90 => exact turned (allowed.resolve_left nofun)

/-- Settles O27: a placing takes the candidate with the lowest top. -/
theorem placingChoosesLowestTop : Obligations.PlacingChoosesLowestTop := by
  refine ⟨fun lp l p c => ?_, fun lp l p => ⟨fun c member => ?_, fun none => ?_⟩,
    fun l xl xr a b covers left range right => ⟨fun x from_ to_ => ?_, ?_⟩⟩
  · simp only [mem_candidates, candidateAt_eq_some]
  · obtain ⟨best, isBest, found, least⟩ := bestCandidate_spec member
    exact ⟨best, isBest, placeOne_best found, Candidate.rank_le_iff.mp (least c member)⟩
  · rw [placeOne_none none, whyUnplaced_eq]
  · exact heightAt_le_heightOver l xl xr a b x covers (left.trans from_) (Nat.lt_of_lt_of_le to_ right) from_ to_
  · exact exists_heightAt_eq l xl xr a b covers left range right

end Sys2Proof.Machine

/-! The nest run: its start, its steps and its completion (R29 to R36). -/

namespace Sys2Proof.Machine

/-! ### NEST over a run with nothing left to place -/

/-- A state with a run in flight whose draft has no entry PENDING; the steps of the model do not lead to it. -/
def State.runWithoutPending : State := { State.reset with nest := { State.reset.nest with run := some ⟨false, [], 0⟩ } }

theorem runWithoutPending_ready : State.runWithoutPending.ready := ⟨⟨rfl, rfl⟩, by decide⟩

/-- The settling behind each NEST completes that run, whatever the reply said. -/
theorem exec_nest_runWithoutPending : ∃ t, exec (.nest 0 0) State.runWithoutPending = .next t ∧ t.nest.run = none :=
  ⟨_, rfl, by rfl⟩

/-- Refutes O26: the busy clause takes each run in flight, also one with nothing PENDING, which the settling behind the
NEST_BUSY reply completes. -/
theorem not_nestStartsRun : ¬ Obligations.NestStartsRun := by
  intro h
  obtain ⟨_, busy, _⟩ := h
  obtain ⟨t, outcome, completed⟩ := exec_nest_runWithoutPending
  obtain ⟨stays, _⟩ := busy State.runWithoutPending 0 0 runWithoutPending_ready
  have same := Host.Outcome.next.inj (outcome.symm.trans (stays nofun))
  rw [same] at completed
  exact nomatch completed

/-! ### One step of the run -/

/-- Between commands a formed notice is queued and nothing else happens. -/
theorem close_emit {t : State} (rest : t.atRest) (n : OutRecord) : (t.emit n).close = t.queueNotice n :=
  (close_settled (s := t.emit n) rest.1).trans (flush_emit rest.2 n)

theorem exec_nestStep {s : State} (rest : s.atRest) : exec .nestStep s = .next s.nestStep.settleNest.close :=
  congrArg (fun u => Host.Outcome.next (State.close (State.settleNest (State.nestStep u)))) (begin_quiet rest.2)

theorem nestStep_idle {s : State} (idle : s.nest.run = none) : s.nestStep = s := by
  unfold State.nestStep
  rw [idle]

theorem settleNest_idle {s : State} (idle : s.nest.run = none) : s.settleNest = s := by
  unfold State.settleNest
  rw [idle]

theorem settleNest_pending {s : State} {run : NestRun} {e : DraftEntry} (active : s.nest.run = some run)
    (drafted : e ∈ run.draft) (pending : e.outcome = .pending) : s.settleNest = s := by
  unfold State.settleNest
  rw [active]
  exact if_pos (List.any_eq_true.mpr ⟨e, drafted, decide_eq_true pending⟩)

theorem settleNest_decided {s : State} {run : NestRun} (active : s.nest.run = some run)
    (decided : ∀ e ∈ run.draft, e.outcome ≠ .pending) : s.settleNest = s.nestCompletes run := by
  unfold State.settleNest
  rw [active]
  refine if_neg fun h => ?_
  obtain ⟨e, drafted, pending⟩ := List.any_eq_true.mp h
  exact decided e drafted (of_decide_eq_true pending)

/-- The run behind the placing of its next panel (R31 to R34). -/
def NestRun.placed (run : NestRun) (slot : Slot) (outcome : DraftOutcome) : NestRun :=
  ⟨run.ordered, run.draft.set run.next ⟨slot, outcome⟩, run.next + 1⟩

/-- The state behind the placing of a draft entry. -/
def State.nestPlaced (s : State) (run : NestRun) (slot : Slot) (placed : DraftOutcome × List Seg) : State :=
  { s with nest := { s.nest with skyline := placed.2, run := some (run.placed slot placed.1) } }

theorem nestStep_next {s : State} {run : NestRun} {d : DraftEntry} (active : s.nest.run = some run)
    (next : run.draft[run.next]? = some d) :
    s.nestStep = s.nestPlaced run d.slot (placeOne s.nest.params s.nest.skyline (s.panel d.slot)) := by
  unfold State.nestStep
  rw [active]
  simp only [next]
  rfl

/-- A placing decides its entry. -/
theorem placeOne_decides (lp : LayoutParams) (l : List Seg) (p : Panel) : (placeOne lp l p).1 ≠ .pending := by
  unfold placeOne
  split
  · nofun
  · unfold whyUnplaced
    split <;> nofun

theorem placed_decided {run : NestRun} {slot : Slot} {outcome : DraftOutcome} (decided : outcome ≠ .pending)
    (others : ∀ k e, k ≠ run.next → run.draft[k]? = some e → e.outcome ≠ .pending) :
    ∀ e ∈ (run.placed slot outcome).draft, e.outcome ≠ .pending := by
  intro e drafted
  obtain ⟨k, at_⟩ := List.mem_iff_getElem?.mp drafted
  change (run.draft.set run.next ⟨slot, outcome⟩)[k]? = some e at at_
  by_cases here : run.next = k
  · rw [List.getElem?_set, if_pos here] at at_
    split at at_
    · rw [← Option.some.inj at_]
      exact decided
    · exact nomatch at_
  · rw [List.getElem?_set_ne here] at at_
    exact others k e (Ne.symm here) at_

/-! ### The completion -/

/-- The panels' records at the completion of a draft (R35). -/
def State.panelsDone (s : State) (draft : List DraftEntry) : Table Panel 96 :=
  s.store.panels.map (Panel.atNestDone draft)

/-- The draft written to the panels' records and the run ended, the rows as they were. -/
def State.nestWritten (s : State) (draft : List DraftEntry) : State :=
  { s with nest := { s.nest with run := none }, store := { s.store with panels := s.panelsDone draft } }

/-- The notice of a completion (R36). -/
def nestDone (draft : List DraftEntry) (panels : Table Panel 96) : OutRecord :=
  nestDoneNotice false (draft.countP fun e => e.outcome.isPlaced) (draft.countP fun e => e.outcome = .unfit)
    (draft.countP fun e => e.outcome = .noRoom) (layoutEnd panels.cells)

theorem nestCompletes_eq (s : State) (run : NestRun) : s.nestCompletes run =
    (s.nestWritten run.draft).recomputeRows.emit
      (nestDone run.draft (s.nestWritten run.draft).recomputeRows.store.panels) := by
  unfold nestDone
  simp only [List.countP_eq_length_filter]
  rfl

/-- The completion where the row count leaves a readying its rows (R35, R36). -/
theorem nestCompletes_keeps {s : State} {run : NestRun}
    (keeps : s.keepsSpan (rowCountOf s.nest.params (s.panelsDone run.draft).cells)) :
    s.nestCompletes run =
      (s.nestWritten run.draft).applyRows.emit (nestDone run.draft (s.panelsDone run.draft)) := by
  rw [nestCompletes_eq, recomputeRows_keeps (s := s.nestWritten run.draft) keeps]
  rfl

theorem find_entry {draft : List DraftEntry} {e : DraftEntry} (once : (draft.map (·.slot)).Nodup)
    (drafted : e ∈ draft) : (draft.find? fun d => d.slot = e.slot) = some e := by
  obtain ⟨d, found⟩ : ∃ d, (draft.find? fun d => d.slot = e.slot) = some d :=
    Option.isSome_iff_exists.mp (List.find?_isSome.mpr ⟨e, drafted, decide_eq_true rfl⟩)
  have test := List.find?_some found
  have same : d.slot = e.slot := of_decide_eq_true test
  rw [found, List.inj_on_of_nodup_map once (List.mem_of_find?_eq_some found) drafted same]

/-- A drafted panel's record at the completion. -/
theorem panelsDone_drafted {s : State} {draft : List DraftEntry} {e : DraftEntry} (once : (draft.map (·.slot)).Nodup)
    (drafted : e ∈ draft) : (s.panelsDone draft).get e.slot = (s.panel e.slot).takeDraft e.outcome := by
  refine (Table.get_map ..).trans ?_
  unfold Panel.atNestDone
  rw [find_entry once drafted]
  rfl

/-- Any other panel's record at the completion. -/
theorem panelsDone_other {s : State} {draft : List DraftEntry} {i : Slot} (absent : ∀ e ∈ draft, e.slot ≠ i) :
    (s.panelsDone draft).get i =
      if (s.panel i).lock = .free then s.panel i else { s.panel i with outcome := .fixed } := by
  refine (Table.get_map ..).trans ?_
  unfold Panel.atNestDone
  rw [List.find?_eq_none.mpr fun e drafted same => absent e drafted (of_decide_eq_true same)]
  change (if (s.panel i).isFixed then { s.panel i with outcome := .fixed } else s.panel i) = _
  unfold Panel.isFixed
  cases (s.panel i).lock <;> rfl

/-- Settles O28. -/
theorem nestStepPlacesAndCompletes : Obligations.NestStepPlacesAndCompletes := by
  refine ⟨fun s rest => ⟨fun idle => ?_, fun run d active next more => ?_⟩,
    fun s run d rest active next once others => ?_⟩
  · rw [exec_nestStep rest, nestStep_idle idle, settleNest_idle idle, close_rest s rest]
  · obtain ⟨k, e, elsewhere, at_, pending⟩ := more
    have drafted : e ∈ (run.placed d.slot (placeOne s.nest.params s.nest.skyline (s.panel d.slot)).1).draft :=
      List.mem_iff_getElem?.mpr ⟨k, (List.getElem?_set_ne elsewhere).trans at_⟩
    rw [exec_nestStep rest, nestStep_next active next, settleNest_pending rfl drafted pending]
    exact congrArg Host.Outcome.next (close_rest (s.nestPlaced run d.slot _) rest)
  · intro placed
    have step : s.nestStep = s.nestPlaced run d.slot placed := nestStep_next active next
    have decided : placed.1 ≠ .pending := placeOne_decides _ _ _
    clear_value placed
    intro draft
    have keptSlots : draft.map (·.slot) = run.draft.map (·.slot) := by
      obtain ⟨inside, same⟩ := List.getElem?_eq_some_iff.mp next
      rw [List.map_set]
      exact (congrArg _ (by rw [← same, List.getElem_map])).trans (List.set_getElem_self (by simpa using inside))
    have once := keptSlots ▸ once
    refine ⟨s.panelsDone draft, fun keeps => ?_, fun e drafted pl outcome => ?_, fun e drafted outcome => ?_,
      fun e drafted outcome => ?_, fun i absent => panelsDone_other absent⟩
    · have still : ((s.nestPlaced run d.slot placed).nestWritten (run.placed d.slot placed.1).draft).applyRows.atRest :=
        rest
      rw [exec_nestStep rest, step, settleNest_decided rfl (placed_decided decided others),
        nestCompletes_keeps (s := s.nestPlaced run d.slot placed) (run := run.placed d.slot placed.1) keeps,
        close_emit still]
      rfl
    all_goals
      rw [panelsDone_drafted once drafted, outcome]
      rfl

end Sys2Proof.Machine

/-! The mark table of a layout, placing by hand, and committing (R40 to R47). -/

namespace Sys2Proof.Machine

/-! ### The row count of a layout -/

theorem rowsNeeded_placed {lp : LayoutParams} {p : Panel} {pl : Placement} (pitch : 0 < lp.markPitch)
    (placed : p.placement = some pl) : p.rowsNeeded lp =
      (pl.y + p.eh pl.rotation - lp.lead + (lp.markPitch - 1)) / lp.markPitch + 1 := by
  unfold Panel.rowsNeeded Panel.extentEnd
  rw [placed]
  show ceilDiv (pl.y + p.eh pl.rotation - lp.lead) lp.markPitch + 1 = _
  unfold ceilDiv
  rw [Nat.add_sub_assoc pitch]

theorem rowsNeeded_unplaced {lp : LayoutParams} {p : Panel} (unplaced : p.placement = none) : p.rowsNeeded lp = 0 := by
  unfold Panel.rowsNeeded Panel.extentEnd
  rw [unplaced]
  rfl

theorem rowsNeeded_le {lp : LayoutParams} {panels : List Panel} {p : Panel} (member : p ∈ panels) :
    p.rowsNeeded lp ≤ rowCountOf lp panels := le_maxOf _ _ (List.mem_map_of_mem member)

/-- The row count of a layout with a panel in it is what one of the panels needs. -/
theorem exists_rowsNeeded_eq {lp : LayoutParams} {panels : List Panel} (some_ : panels ≠ []) :
    ∃ p ∈ panels, p.rowsNeeded lp = rowCountOf lp panels :=
  List.mem_map.mp (maxOf_mem _ (mt List.map_eq_nil_iff.mp some_))

theorem rowCountOf_unplaced {lp : LayoutParams} {panels : List Panel} (unplaced : ∀ p ∈ panels, p.placement = none) :
    rowCountOf lp panels = 0 := by
  by_cases empty : panels = []
  · rw [empty]
    rfl
  · obtain ⟨p, member, needs⟩ := exists_rowsNeeded_eq (lp := lp) empty
    rw [← needs, rowsNeeded_unplaced (unplaced p member)]

/-! ### The row count applied to the marks -/

theorem length_resized {α : Type} (l : List α) (n : Nat) (a : α) :
    (l.take n ++ List.replicate (n - l.length) a).length = n := by
  rw [List.length_append, List.length_take, List.length_replicate]
  omega

/-- A list cut or filled to a length keeps the entries that it has. -/
theorem getElem?_resized {α : Type} (l : List α) {n r : Nat} (a : α) (below : r < n) :
    (l.take n ++ List.replicate (n - l.length) a)[r]? = some (l[r]?.getD a) := by
  rcases Nat.lt_or_ge r l.length with inside | beyond
  · rw [List.getElem?_append_left (by rw [List.length_take]; omega), List.getElem?_take_of_lt below,
      List.getElem?_eq_getElem inside]
    rfl
  · rw [List.getElem?_append_right (by rw [List.length_take]; omega), List.getElem?_replicate,
      if_pos (by rw [List.length_take]; omega), List.getElem?_eq_none beyond]
    rfl

theorem rowCount_applyRows (s : State) :
    s.applyRows.rowCount = rowCountOf s.nest.params s.store.panels.cells := length_resized ..

/-- Settles O30. -/
theorem markTableFollowsLayout : Obligations.MarkTableFollowsLayout := by
  refine ⟨fun lp panels pitch => ?_, fun mu n _ => ⟨length_resized .., length_resized .., fun r below =>
    getElem?_resized mu.rows _ below, fun i below => getElem?_resized mu.bands _ (by omega), rfl⟩⟩
  refine ⟨rowCountOf_unplaced, fun p member pl placed => ?_, fun ⟨p, member, placed⟩ => ?_⟩
  · exact (rowsNeeded_placed pitch placed).symm.trans_le (rowsNeeded_le member)
  · obtain ⟨q, inLayout, needs⟩ := exists_rowsNeeded_eq (lp := lp) (List.ne_nil_of_mem member)
    obtain ⟨pl, at_⟩ := Option.ne_none_iff_exists'.mp placed
    have least := rowsNeeded_le (lp := lp) member
    rw [rowsNeeded_placed pitch at_] at least
    cases place : q.placement with
    | none =>
      rw [rowsNeeded_unplaced place] at needs
      exact absurd (least.trans_eq needs.symm) (Nat.not_succ_le_zero _)
    | some ql => exact ⟨q, inLayout, ql, place, needs.symm.trans (rowsNeeded_placed pitch place)⟩

/-! ### Requests that a nest run and an open outline hold off -/

section
variable {s : State} {behind : Acted}

theorem gate_running (running : s.nest.run ≠ none) : (if s.nestRunning then s.answer .nestBusy
    else if s.outlineOpen then s.answer .outlineOpen else behind) = s.answer .nestBusy :=
  if_pos (nestRunning_iff.mpr running)

theorem gate_open (idle : s.nest.run = none) (isOpen : s.store.loader ≠ none) : (if s.nestRunning then
    s.answer .nestBusy else if s.outlineOpen then s.answer .outlineOpen else behind) = s.answer .outlineOpen :=
  (if_neg (not_nestRunning idle)).trans (if_pos (outlineOpen_iff.mpr isOpen))

theorem gate_passed (idle : s.nest.run = none) (closed : s.store.loader = none) : (if s.nestRunning then
    s.answer .nestBusy else if s.outlineOpen then s.answer .outlineOpen else behind) = behind :=
  (if_neg (not_nestRunning idle)).trans (if_neg (not_outlineOpen closed))

end

/-! ### PLACE -/

theorem rotationOf_code {b : Byte} {r : Rotation} (h : b.toNat = r.code) : rotationOf b = some r := by
  have same : b = BitVec.ofNat 8 r.code := by rw [← h, BitVec.ofNat_toNat, BitVec.setWidth_eq]
  subst same
  cases r <;> decide

theorem rotationOf_none {b : Byte} (not0 : b.toNat ≠ 0) (not90 : b.toNat ≠ 90) : rotationOf b = none := by
  unfold rotationOf
  rw [if_neg (fun h => not0 (by rw [h]; rfl)), if_neg (fun h => not90 (by rw [h]; rfl))]

theorem fitsUsable_iff {lp : LayoutParams} {p : Panel} {pl : Placement} : fitsUsable lp p pl = true ↔
    lp.marginSide ≤ pl.x ∧ pl.x + p.ew pl.rotation ≤ lp.mediaWidth - lp.marginSide ∧ lp.lead ≤ pl.y ∧
      pl.y + p.eh pl.rotation ≤ lp.lead + 99 * lp.markPitch := by
  unfold fitsUsable
  simp only [Bool.and_eq_true, decide_eq_true_eq, and_assoc]
  rfl

theorem overlaps_iff {s : State} {i : Slot} {pl : Placement} : s.overlaps i pl = true ↔
    ∃ j q, j ≠ i ∧ (s.panel j).placement = some q ∧
      footprintsMeet s.nest.params (s.panel i) pl (s.panel j) q = true := by
  unfold State.overlaps
  simp only [List.any_eq_true, List.mem_finRange, true_and, Bool.and_eq_true, decide_eq_true_eq]
  constructor
  · rintro ⟨j, other, meets⟩
    split at meets
    · rename_i q placed
      exact ⟨j, q, other, placed, meets⟩
    · exact nomatch meets
  · rintro ⟨j, q, other, placed, meets⟩
    refine ⟨j, other, ?_⟩
    rw [placed]
    exact meets

theorem footprintsMeet_iff {lp : LayoutParams} {p q : Panel} {pl ql : Placement} :
    footprintsMeet lp p pl q ql = true ↔
      (pl.x < ql.x + q.ew ql.rotation + lp.gap ∧ ql.x < pl.x + p.ew pl.rotation + lp.gap) ∧
        (pl.y < ql.y + q.eh ql.rotation + lp.gap ∧ ql.y < pl.y + p.eh pl.rotation + lp.gap) := by
  unfold footprintsMeet
  rw [Bool.and_eq_true, rangesMeet_iff, rangesMeet_iff]

section
variable {s : State} {slot rotation : Byte} {x y : Word} (idle : s.nest.run = none) (closed : s.store.loader = none)
include idle closed

theorem actPlace_badArg (wrong : 95 < slot.toNat ∨ (rotation.toNat ≠ 0 ∧ rotation.toNat ≠ 90)) :
    actPlace slot rotation x y s = s.answer .badArg := by
  refine (gate_passed idle closed).trans ?_
  rcases wrong with above | ⟨not0, not90⟩
  · rw [slotOf_above above]
  · rw [rotationOf_none not0 not90]
    cases slotOf slot <;> rfl

/-- Checks 4 to 9 of R40 and the effect. -/
theorem actPlace_slot {i : Slot} {r : Rotation} (named : slot.toNat = i.val) (turned : rotation.toNat = r.code) :
    actPlace slot rotation x y s =
      if (s.panel i).lock = .committed then s.answer .locked
      else if (s.panel i).state ≠ .loaded ∧ (s.panel i).state ≠ .placed then s.answer .refusedState
      else if r = .r90 ∧ (s.panel i).rotateOk = false then s.answer .badArg
      else if !fitsUsable s.nest.params (s.panel i) ⟨x.toNat, y.toNat, r⟩ then s.answer .doesNotFit
      else if s.overlaps i ⟨x.toNat, y.toNat, r⟩ then s.answer .overlap
      else if (s.panel i).state = .placed ∧ (s.panel i).lock = .pinned ∧
        (s.panel i).placement = some ⟨x.toNat, y.toNat, r⟩ then s.answer .noChange
      else
        let t := (s.setPanel i { s.panel i with
          state := .placed, lock := .pinned, placement := some ⟨x.toNat, y.toNat, r⟩, outcome := .none }).recomputeRows
        t.doneWith (be32 x.toNat ++ be32 y.toNat ++ [u8 r.code] ++ be32 ((s.panel i).ew r) ++
          be32 ((s.panel i).eh r) ++ [u8 t.rowCount]) := by
  refine (gate_passed idle closed).trans ?_
  rw [slotOf_eq_some named, rotationOf_code turned]

end

/-- Footprints apart in one direction for each other panel are no overlap. -/
theorem not_overlaps {s : State} {i : Slot} {pl : Placement} (apart : ∀ j q, j ≠ i → (s.panel j).placement = some q →
    q.x + (s.panel j).ew q.rotation + s.nest.params.gap ≤ pl.x ∨
    pl.x + (s.panel i).ew pl.rotation + s.nest.params.gap ≤ q.x ∨
    q.y + (s.panel j).eh q.rotation + s.nest.params.gap ≤ pl.y ∨
    pl.y + (s.panel i).eh pl.rotation + s.nest.params.gap ≤ q.y) : ¬s.overlaps i pl = true := by
  intro meets
  obtain ⟨j, q, other, placed, meet⟩ := overlaps_iff.mp meets
  have := apart j q other placed
  have := footprintsMeet_iff.mp meet
  omega

/-- The effect of a placing by hand or of a taking away on the panel table and the marks. -/
theorem recomputeRows_setPanel {s : State} {i : Slot} {p : Panel}
    (keeps : s.keepsSpan (rowCountOf s.nest.params (s.store.panels.set i p).cells)) :
    (s.setPanel i p).recomputeRows = (s.setPanel i p).applyRows := recomputeRows_keeps (s := s.setPanel i p) keeps

/-- Settles O31. -/
theorem placeTakesPlacement : Obligations.PlaceTakesPlacement := by
  refine ⟨?_, ?_, ?_⟩
  · intro s tag slot rotation x y i r ready idle closed named turned p lp pl free stands allowed left right bottom top
      apart new panels rows keeps
    have ⟨⟨settled, quiet⟩, _⟩ := ready
    have fits : fitsUsable s.nest.params (s.panel i) pl = true := fitsUsable_iff.mpr ⟨left, right, bottom, top⟩
    have act := actPlace_slot (x := x) (y := y) idle closed named turned
    rw [if_neg free, if_neg (by tauto),
      if_neg (by rintro ⟨quarter, fixed⟩; rw [allowed quarter] at fixed; nomatch fixed),
      show fitsUsable s.nest.params (s.panel i) ⟨x.toNat, y.toNat, r⟩ = true from fits, if_neg (by decide),
      if_neg (not_overlaps apart), if_neg new] at act
    dsimp only at act
    rw [recomputeRows_setPanel keeps, rowCount_applyRows] at act
    exact request_answered ready rfl act settled quiet
  · intro s tag slot rotation x y i r ready idle closed named turned p lp pl answer fits
    have act := actPlace_slot (x := x) (y := y) idle closed named turned
    have refused {status : Status} (act : actPlace slot rotation x y s = s.answer status) : answer status :=
      request_unchanged ready rfl act
    refine ⟨fun committed => refused (act.trans (if_pos committed)), fun free =>
      ⟨fun notLoaded notPlaced => refused (act.trans ((if_neg free).trans (if_pos ⟨notLoaded, notPlaced⟩))),
        fun stands => ?_⟩⟩
    rw [if_neg free, if_neg (by tauto)] at act
    refine ⟨fun quarter fixed => refused (act.trans (if_pos ⟨quarter, fixed⟩)), fun allowed => ?_⟩
    rw [if_neg (by rintro ⟨quarter, fixed⟩; rw [allowed quarter] at fixed; nomatch fixed)] at act
    have within : fitsUsable s.nest.params (s.panel i) pl = true ↔ fits := fitsUsable_iff
    refine ⟨fun outside => refused (act.trans (if_pos ?_)), fun inside j q other placed a b c d => ?_,
      fun inside apart placed pinned same => ?_⟩
    · rw [Bool.not_eq_true', ← Bool.not_eq_true]
      exact within.not.mpr outside
    all_goals
      rw [show fitsUsable s.nest.params (s.panel i) ⟨x.toNat, y.toNat, r⟩ = true from within.mpr inside,
        if_neg (by decide)] at act
    · have meets : s.overlaps i pl = true :=
        overlaps_iff.mpr ⟨j, q, other, placed, footprintsMeet_iff.mpr ⟨⟨a, b⟩, c, d⟩⟩
      exact refused (act.trans (if_pos meets))
    · exact refused (act.trans ((if_neg (not_overlaps apart)).trans (if_pos ⟨placed, pinned, same⟩)))
  · intro s tag slot rotation x y ready answer
    have refused {status : Status} (act : actPlace slot rotation x y s = s.answer status) : answer status :=
      request_unchanged ready rfl act
    exact ⟨fun running => refused (gate_running running), fun idle isOpen => refused (gate_open idle isOpen),
      fun idle closed wrong => refused (actPlace_badArg idle closed wrong)⟩

/-! ### UNPLACE -/

theorem actUnplace_slot {s : State} {slot : Byte} {i : Slot} (idle : s.nest.run = none) (closed : s.store.loader = none)
    (named : slot.toNat = i.val) : actUnplace slot s =
      if (s.panel i).lock = .committed then s.answer .locked
      else if (s.panel i).state = .loaded then s.answer .noChange
      else if (s.panel i).state = .empty ∨ (s.panel i).state = .loading then s.answer .refusedState
      else
        let t := (s.setPanel i { s.panel i with
          state := .loaded, lock := .free, placement := none, outcome := .none }).recomputeRows
        t.doneWith [u8 t.rowCount] := by
  refine (gate_passed idle closed).trans ?_
  rw [slotOf_eq_some named]

/-- Settles O32. -/
theorem unplaceRemovesPlacement : Obligations.UnplaceRemovesPlacement := by
  constructor
  · intro s tag slot i ready named p answer
    have ⟨⟨settled, quiet⟩, _⟩ := ready
    have refused {status : Status} (act : actUnplace slot s = s.answer status) : answer status :=
      request_unchanged ready rfl act
    refine ⟨fun running => refused (gate_running running), fun idle isOpen => refused (gate_open idle isOpen),
      fun idle closed => ?_⟩
    have act := actUnplace_slot idle closed named
    refine ⟨fun committed => refused (act.trans (if_pos committed)), fun free => ?_⟩
    rw [if_neg free] at act
    refine ⟨fun loaded => refused (act.trans (if_pos loaded)), fun unloaded => refused ?_, fun placed => ?_⟩
    · have notLoaded : (s.panel i).state ≠ .loaded := by
        rcases unloaded with h | h <;> rw [show (s.panel i).state = _ from h] <;> decide
      exact act.trans ((if_neg notLoaded).trans (if_pos unloaded))
    · intro panels rows keeps
      rw [show (s.panel i).state = .placed from placed, if_neg (by decide), if_neg (by decide)] at act
      dsimp only at act
      rw [recomputeRows_setPanel keeps, rowCount_applyRows] at act
      exact request_answered ready rfl act settled quiet
  · intro s tag slot ready idle closed above
    refine request_unchanged ready rfl ((gate_passed idle closed).trans ?_)
    rw [slotOf_above above]

/-! ### PIN and UNPIN -/

theorem actPin_slot {s : State} {slot : Byte} {i : Slot} (idle : s.nest.run = none) (closed : s.store.loader = none)
    (named : slot.toNat = i.val) : actPin slot s =
      if (s.panel i).lock = .committed then s.answer .locked
      else if (s.panel i).state ≠ .placed then s.answer .refusedState
      else if (s.panel i).lock = .pinned then s.answer .noChange
      else (s.setPanel i { s.panel i with lock := .pinned }).done := by
  refine (gate_passed idle closed).trans ?_
  rw [slotOf_eq_some named]

theorem actUnpin_slot {s : State} {slot : Byte} {i : Slot} (idle : s.nest.run = none) (closed : s.store.loader = none)
    (named : slot.toNat = i.val) : actUnpin slot s =
      if (s.panel i).lock = .committed then s.answer .locked
      else if (s.panel i).state = .empty ∨ (s.panel i).state = .loading then s.answer .refusedState
      else if (s.panel i).lock = .free then s.answer .noChange
      else (s.setPanel i { s.panel i with lock := .free }).done := by
  refine (gate_passed idle closed).trans ?_
  rw [slotOf_eq_some named]

/-- Settles O33. -/
theorem pinFixesAndUnpinFrees : Obligations.PinFixesAndUnpinFrees := by
  constructor
  · intro s tag slot ready answer
    have ⟨⟨settled, quiet⟩, _⟩ := ready
    have refused {status : Status} (act : actPin slot s = s.answer status) : answer status :=
      request_unchanged ready rfl act
    refine ⟨fun running => refused (gate_running running), fun idle isOpen => refused (gate_open idle isOpen),
      fun idle closed above => refused ((gate_passed idle closed).trans (by rw [slotOf_above above])),
      fun i idle closed named => ?_⟩
    have act := actPin_slot idle closed named
    refine ⟨fun committed => refused (act.trans (if_pos committed)), fun free away => ?_, fun pinned placed => ?_,
      fun free placed => ⟨?_, rfl, rfl⟩⟩
    · exact refused (act.trans ((if_neg free).trans (if_pos away)))
    all_goals
      rw [show (s.panel i).state = .placed from placed, show (s.panel i).lock = _ from by assumption,
        if_neg (by decide), if_neg (by decide)] at act
    · exact refused act
    · exact request_answered ready rfl act settled quiet
  · intro s tag slot ready answer
    have ⟨⟨settled, quiet⟩, _⟩ := ready
    have refused {status : Status} (act : actUnpin slot s = s.answer status) : answer status :=
      request_unchanged ready rfl act
    refine ⟨fun running => refused (gate_running running), fun idle isOpen => refused (gate_open idle isOpen),
      fun idle closed above => refused ((gate_passed idle closed).trans (by rw [slotOf_above above])),
      fun i idle closed named => ?_⟩
    have act := actUnpin_slot idle closed named
    refine ⟨fun committed => refused (act.trans (if_pos committed)), fun free unloaded => ?_,
      fun free notEmpty notLoading => ?_, fun pinned notEmpty notLoading => ⟨?_, fun placed => ?_⟩⟩
    · exact refused (act.trans ((if_neg free).trans (if_pos unloaded)))
    · rw [show (s.panel i).lock = .free from free, if_neg (by decide),
        if_neg (not_or.mpr ⟨notEmpty, notLoading⟩)] at act
      exact refused act
    · rw [show (s.panel i).lock = .pinned from pinned, if_neg (by decide),
        if_neg (not_or.mpr ⟨notEmpty, notLoading⟩)] at act
      exact request_answered ready rfl act settled quiet
    · show (decide (Lock.free = .free) &&
        (decide ((s.panel i).state = .loaded) || decide ((s.panel i).state = .placed))) = true
      rw [show (s.panel i).state = .placed from placed]
      rfl

/-! ### COMMIT -/

section
variable {s : State} {mode : Byte} {slots : List Byte}

theorem namedSet_all (all : mode = 0) : s.namedSet mode slots =
    some ((List.finRange 96).filter fun i => (s.panel i).state = .placed && (s.panel i).lock ≠ .committed) :=
  if_pos all

/-- A list of slots is allowed with 1 to 96 numbers of slots. -/
theorem namedSet_list (listed : mode = 1) (some_ : slots ≠ []) (most : slots.length ≤ 96)
    (bytes : ∀ b ∈ slots, b.toNat ≤ 95) : s.namedSet mode slots =
      some ((List.finRange 96).filter fun i => slots.any fun b => slotOf b = some i) := by
  have allSlots : slots.all (fun b => (slotOf b).isSome) = true := by
    refine List.all_eq_true.mpr fun b member => ?_
    rw [slotOf_eq_some (i := ⟨b.toNat, Nat.lt_succ_of_le (bytes b member)⟩) rfl]
    rfl
  exact (if_neg (by rw [listed]; decide)).trans (if_pos ⟨listed, List.length_pos_iff.mpr some_, most, allSlots⟩)

theorem namedSet_none (wrong : 1 < mode.toNat ∨
    (mode = 1 ∧ (slots = [] ∨ 96 < slots.length ∨ ∃ b ∈ slots, 95 < b.toNat))) : s.namedSet mode slots = none := by
  unfold State.namedSet
  rw [if_neg (by rintro rfl; simp at wrong), if_neg]
  rintro ⟨rfl, least, most, bytes⟩
  rcases wrong with above | ⟨_, empty | long | ⟨b, member, above⟩⟩
  · exact absurd above (by decide)
  · rw [empty] at least
    exact absurd least (by decide)
  · omega
  · have := List.all_eq_true.mp bytes b member
    rw [slotOf_above above] at this
    exact nomatch this

/-- Checks 4 to 6 of R45 and the effect, on the named set. -/
theorem actCommit_named {named : List Slot} (idle : s.nest.run = none) (closed : s.store.loader = none)
    (names : s.namedSet mode slots = some named) : actCommit mode slots s =
      if named.any fun i => (s.panel i).state ≠ .placed then s.answer .refusedState
      else if (named.filter fun i => (s.panel i).lock ≠ .committed).isEmpty then s.answer .noChange
      else if (named.filter fun i => (s.panel i).lock ≠ .committed).any fun i => s.reachesBuilt (s.panel i) then
        s.answer .windowPassed
      else
        (s.withStore { s.store with
          panels := s.store.panels.map fun i p => if named.contains i then { p with lock := .committed } else p
          }).doneWith [u8 (named.filter fun i => (s.panel i).lock ≠ .committed).length] := by
  refine (gate_passed idle closed).trans ?_
  rw [names]

end

/-- The slots that a COMMIT names. -/
def State.commitNames (s : State) (mode : Byte) (slots : List Byte) (i : Slot) : Prop :=
  if mode = 0 then (s.panel i).state = .placed ∧ (s.panel i).lock ≠ .committed else ∃ b ∈ slots, b.toNat = i.val

theorem slotOf_eq_some_iff {b : Byte} {i : Slot} : slotOf b = some i ↔ b.toNat = i.val := by
  refine ⟨fun h => ?_, slotOf_eq_some⟩
  unfold slotOf at h
  split at h
  · exact congrArg Fin.val (Option.some.inj h)
  · exact nomatch h

/-- An allowed COMMIT has a named set without repeats. -/
theorem exists_namedSet {s : State} {mode : Byte} {slots : List Byte}
    (allowed : mode = 0 ∨ (mode = 1 ∧ slots ≠ [] ∧ slots.length ≤ 96 ∧ ∀ b ∈ slots, b.toNat ≤ 95)) :
    ∃ named, s.namedSet mode slots = some named ∧ named.Nodup ∧ ∀ i, i ∈ named ↔ s.commitNames mode slots i := by
  unfold State.commitNames
  rcases allowed with rfl | ⟨rfl, some_, most, bytes⟩
  · refine ⟨_, namedSet_all rfl, (List.nodup_finRange 96).filter _, fun i => ?_⟩
    rw [List.mem_filter, Bool.and_eq_true, decide_eq_true_eq, decide_eq_true_eq, if_pos rfl]
    exact ⟨fun h => h.2, fun h => ⟨List.mem_finRange i, h⟩⟩
  · refine ⟨_, namedSet_list rfl some_ most bytes, (List.nodup_finRange 96).filter _, fun i => ?_⟩
    rw [List.mem_filter, List.any_eq_true, if_neg (by decide)]
    simp only [decide_eq_true_eq, slotOf_eq_some_iff]
    exact ⟨fun h => h.2, fun h => ⟨List.mem_finRange i, h⟩⟩

theorem windowsBuilt_spec (s : State) : (s.plan.worklist = none → s.windowsBuilt = s.cycle.pointer) ∧
    ∀ w, s.plan.worklist = some w → w.window = s.cycle.pointer → s.windowsBuilt = s.cycle.pointer + 1 := by
  unfold State.windowsBuilt
  refine ⟨fun unbuilt => by rw [unbuilt], fun w built here => ?_⟩
  rw [built]
  exact if_pos here

theorem reachesBuilt_spec (s : State) (p : Panel) : (p.placement = none → s.reachesBuilt p = false) ∧
    ∀ pl, p.placement = some pl → (s.reachesBuilt p = true ↔
      1 ≤ s.windowsBuilt ∧ pl.y < s.nest.params.windowStart s.windowsBuilt) := by
  unfold State.reachesBuilt
  refine ⟨fun unplaced => by rw [unplaced], fun pl placed => ?_⟩
  rw [placed]
  simp only [Bool.and_eq_true, decide_eq_true_eq]

theorem commit_wellFormed {tag mode : Byte} {slots : List Byte}
    (shape : (mode = 0 ∧ slots = []) ∨ (mode ≠ 0 ∧ slots.length ≤ 240)) :
    (Instr.commit tag mode slots).wellFormed = true := by
  show (if mode = 0 then slots.isEmpty else decide (slots.length ≤ 240)) = true
  rcases shape with ⟨all, none⟩ | ⟨listed, most⟩
  · rw [if_pos all, none]
    rfl
  · rw [if_neg listed]
    exact decide_eq_true most

/-- Settles O35. -/
theorem commitAllOrNone : Obligations.CommitAllOrNone := by
  refine ⟨fun s tag mode slots ready idle closed shape => ?_, fun s p => ?_, fun s tag mode slots ready shape => ?_⟩
  · intro answer named
    have ⟨⟨settled, quiet⟩, _⟩ := ready
    have wf := commit_wellFormed (tag := tag) shape
    have refused {status : Status} (act : actCommit mode slots s = s.answer status) : answer status :=
      request_unchanged ready wf act
    refine ⟨fun wrong => refused ?_, fun allowed => ?_⟩
    · refine (gate_passed idle closed).trans ?_
      rw [namedSet_none wrong]
    · obtain ⟨slotsNamed, names, once, members⟩ := exists_namedSet (s := s) allowed
      have fresh {i : Slot} : i ∈ slotsNamed.filter (fun i => (s.panel i).lock ≠ .committed) ↔
          named i ∧ (s.panel i).lock ≠ .committed := by
        rw [List.mem_filter, decide_eq_true_eq, members]
        rfl
      have act := actCommit_named idle closed names
      refine ⟨fun ⟨i, isNamed, away⟩ => refused (act.trans (if_pos ?_)), fun placed => ?_⟩
      · exact List.any_eq_true.mpr ⟨i, (members i).mpr isNamed, decide_eq_true away⟩
      · rw [if_neg] at act
        on_goal 2 =>
          intro found
          obtain ⟨i, member, away⟩ := List.any_eq_true.mp found
          exact of_decide_eq_true away (placed i ((members i).mp member))
        refine ⟨fun all => refused (act.trans (if_pos ?_)), fun ⟨i, isNamed, free, reaches⟩ => refused ?_,
          fun ⟨i, isNamed, free⟩ ahead => ?_⟩
        · refine List.isEmpty_iff.mpr (List.eq_nil_iff_forall_not_mem.mpr fun i member => ?_)
          obtain ⟨isNamed, free⟩ := fresh.mp member
          exact free (all i isNamed)
        · rw [if_neg (fun h => List.ne_nil_of_mem (fresh.mpr ⟨isNamed, free⟩) (List.isEmpty_iff.mp h)),
            if_pos (List.any_eq_true.mpr ⟨i, fresh.mpr ⟨isNamed, free⟩, reaches⟩)] at act
          exact act
        · rw [if_neg (fun h => List.ne_nil_of_mem (fresh.mpr ⟨isNamed, free⟩) (List.isEmpty_iff.mp h)), if_neg] at act
          on_goal 2 =>
            intro found
            obtain ⟨j, member, reaches⟩ := List.any_eq_true.mp found
            obtain ⟨isNamed, free⟩ := fresh.mp member
            rw [ahead j isNamed free] at reaches
            exact nomatch reaches
          refine ⟨_, _, request_answered ready wf act settled quiet, once.filter _, fun i => fresh, fun i isNamed => ?_,
            fun i absent => ?_⟩
          · refine (Table.get_map ..).trans (if_pos ?_)
            exact List.contains_iff_mem.mpr ((members i).mpr isNamed)
          · refine (Table.get_map ..).trans (if_neg fun contained => absent ?_)
            exact (members i).mp (List.contains_iff_mem.mp contained)
  · obtain ⟨unbuilt, built⟩ := windowsBuilt_spec s
    obtain ⟨unplaced, placed⟩ := reachesBuilt_spec s p
    exact ⟨unbuilt, built, unplaced, placed⟩
  · intro answer
    have wf := commit_wellFormed (tag := tag) shape
    exact ⟨fun running => request_unchanged ready wf (gate_running running),
      fun idle isOpen => request_unchanged ready wf (gate_open idle isOpen)⟩

end Sys2Proof.Machine

/-! What a safe state fixes, the take of an entry at a close, CLEAR_FAULT, HOME, JOG and TEST_CUT (R92, R94, R113, R114,
R119 to R125, R149, R150). -/

namespace Sys2Proof.Machine

/-! ### What a safe state fixes -/

section
variable {s : State} (safe : s.cycleSafe = true)
include safe

theorem safe_parts : s.motionSettled = true ∧ s.haltSafe = true ∧ s.recordsSafe = true ∧ s.beaconSafe = true ∧
    s.settleSafe = true := by
  unfold State.cycleSafe at safe
  simpa only [Bool.and_eq_true, and_assoc] using safe

theorem settled_of_safe : s.motionSettled = true := (safe_parts safe).1

theorem fault_isSome_of_safe : s.cycle.fault.isSome = (s.cycle.state == .halted) := by
  obtain ⟨_, halts, _⟩ := safe_parts safe
  unfold State.haltSafe at halts
  exact (eq_of_beq (Bool.and_eq_true_iff.mp halts).1).symm

theorem fault_of_safe (notHalted : s.cycle.state ≠ .halted) : s.cycle.fault = none := by
  have := fault_isSome_of_safe safe
  rw [beq_false_of_ne notHalted] at this
  exact Option.isSome_eq_false_iff.mp this |> Option.isNone_iff_eq_none.mp

theorem hold_isSome_of_safe : s.cycle.hold.isSome = (s.cycle.state == .held) := by
  obtain ⟨_, _, records, _⟩ := safe_parts safe
  unfold State.recordsSafe at records
  simp only [Bool.and_eq_true] at records
  exact eq_of_beq records.1.1.1

theorem hold_of_safe (notHeld : s.cycle.state ≠ .held) : s.cycle.hold = none := by
  have := hold_isSome_of_safe safe
  rw [beq_false_of_ne notHeld] at this
  exact Option.isSome_eq_false_iff.mp this |> Option.isNone_iff_eq_none.mp

theorem taken_isSome_of_safe : s.cycle.taken.isSome = (s.cycle.state == .suspended) := by
  obtain ⟨_, _, records, _⟩ := safe_parts safe
  unfold State.recordsSafe at records
  simp only [Bool.and_eq_true] at records
  exact eq_of_beq records.1.1.2

theorem taken_of_safe (notSuspended : s.cycle.state ≠ .suspended) : s.cycle.taken = none := by
  have := taken_isSome_of_safe safe
  rw [beq_false_of_ne notSuspended] at this
  exact Option.isSome_eq_false_iff.mp this |> Option.isNone_iff_eq_none.mp

theorem before_of_safe {b : Before} (kept : s.cycle.before = some b) :
    b.state = .idle ∨ b.state = .suspended ∨ b.state = .held := by
  obtain ⟨_, _, records, _⟩ := safe_parts safe
  unfold State.recordsSafe at records
  rw [kept] at records
  simp only [Bool.and_eq_true, Bool.or_eq_true, beq_iff_eq] at records
  obtain ⟨_, ⟨states, _⟩, _⟩ := records
  exact or_assoc.mp states

theorem settleTimer_of_safe (notMeasuring : s.cycle.state ≠ .measuring) : s.cycle.settleTimer = none := by
  obtain ⟨_, _, _, _, timer⟩ := safe_parts safe
  unfold State.settleSafe at timer
  rw [beq_false_of_ne notMeasuring, Bool.or_false] at timer
  exact Option.isNone_iff_eq_none.mp timer

theorem beacon_of_safe : s.bed.beacon = (s.cycle.state == .held || s.cycle.state == .halted) := by
  obtain ⟨_, _, _, beacon, _⟩ := safe_parts safe
  exact eq_of_beq beacon

theorem beacon_off_of_safe (notHeld : s.cycle.state ≠ .held) (notHalted : s.cycle.state ≠ .halted) :
    s.bed.beacon = false := by
  rw [beacon_of_safe safe, beq_false_of_ne notHeld, beq_false_of_ne notHalted]
  rfl

end

/-! ### Going to a cycle state -/

/-- No hold, no record taken, no settle timer, BEACON off: what a change to a state other than HELD and HALTED keeps. -/
structure State.Plain (s : State) : Prop where
  hold : s.cycle.hold = none
  taken : s.cycle.taken = none
  timer : s.cycle.settleTimer = none
  beacon : s.bed.beacon = false

theorem plain_of_safe {s : State} (safe : s.cycleSafe = true) (notHeld : s.cycle.state ≠ .held)
    (notHalted : s.cycle.state ≠ .halted) (notSuspended : s.cycle.state ≠ .suspended)
    (notMeasuring : s.cycle.state ≠ .measuring) : s.Plain :=
  ⟨hold_of_safe safe notHeld, taken_of_safe safe notSuspended, settleTimer_of_safe safe notMeasuring,
    beacon_off_of_safe safe notHeld notHalted⟩

theorem withBeacon_same {b : BedIO} {v : Bool} (h : b.beacon = v) : { b with beacon := v } = b := by
  subst h
  rfl

/-- What a change of the cycle state makes of the bed. -/
theorem setCycle_bed {s : State} {st : CycleState} (h : s.bed.beacon = (st = .held || st = .halted)) :
    (s.setCycle st).bed = s.bed := withBeacon_same h

/-- The cycle state alone changed. -/
def State.inCycle (st : CycleState) (s : State) : State := s.withCycle { s.cycle with state := st }

theorem setCycle_plain {s : State} {st : CycleState} (plain : s.Plain) (notHeld : st ≠ .held)
    (notHalted : st ≠ .halted) : s.setCycle st = s.inCycle st := by
  have lamp : s.bed.beacon = (st = .held || st = .halted) := by
    rw [plain.beacon, decide_eq_false notHeld, decide_eq_false notHalted]
    rfl
  have cycle : (s.setCycle st).cycle = { s.cycle with state := st } := by
    show ({ s.cycle with
      state := st
      hold := if st = .held then s.cycle.hold else none
      taken := if st = .suspended then s.cycle.taken else none
      settleTimer := if st = .measuring then s.cycle.settleTimer else none } : CycleControl) =
        { s.cycle with state := st }
    dsimp only
    rw [plain.hold, plain.taken, plain.timer, ite_self, ite_self, ite_self]
  show ({ s with cycle := (s.setCycle st).cycle, bed := (s.setCycle st).bed } : State) = _
  rw [cycle, setCycle_bed lamp]
  rfl

/-! ### The take of an entry at the close of a command -/

theorem not_executing_of_empty {s : State} (settled : s.motionSettled = true) (empty : s.motion.queue = []) :
    s.motion.executing = false := by
  have := eq_of_beq settled
  rw [this, empty]
  rfl

theorem queue_empty_of_idle {s : State} (settled : s.motionSettled = true) (idle : s.motion.executing = false) :
    s.motion.queue = [] := by
  have := eq_of_beq settled
  rw [idle] at this
  simpa using this

theorem executing_of_queue {s : State} {e : Entry} {rest : List Entry} (settled : s.motionSettled = true)
    (queue : s.motion.queue = e :: rest) : s.motion.executing = true := by
  have := eq_of_beq settled
  rw [this, queue]
  rfl

theorem executingEntry_of_queue {s : State} {e : Entry} {rest : List Entry} (settled : s.motionSettled = true)
    (queue : s.motion.queue = e :: rest) : s.motion.executingEntry = some e := by
  unfold MotionUnit.executingEntry
  rw [if_pos (executing_of_queue settled queue), queue]
  rfl

/-- An idle motion unit with an entry queued takes it at the close (R120). -/
theorem close_takes {t : State} {e : Entry} {rest : List Entry} (idle : t.motion.executing = false)
    (queue : t.motion.queue = e :: rest) (notHome : e ≠ .home) : t.close = (t.takeEntry e).flush := by
  unfold State.close
  rw [queue, List.length_cons]
  unfold State.takeEntries
  rw [idle, queue, if_neg (by decide)]
  exact congrArg State.flush (if_neg notHome)

/-- A HOME taken leaves the motion unit settled: it executes, or it has ended and the queue is empty (R125). -/
theorem close_takes_home {t : State} (idle : t.motion.executing = false) (queue : t.motion.queue = [.home])
    (settled : (t.takeEntry .home).motionSettled = true) : t.close = (t.takeEntry .home).flush := by
  unfold State.close
  rw [queue]
  show (t.takeEntries 1).flush = _
  unfold State.takeEntries
  rw [idle, queue, if_neg (by decide)]
  exact congrArg State.flush ((if_pos rfl).trans (takeEntries_settled settled 0))

section
variable {t : State} (shut : t.guardOpen = false)
include shut

/-- The take of an entry that passes the GUARD test and the limit check (R120, R121). -/
theorem takeEntry_passes {e : Entry} (within : limitFailure t.motion.homed e = none) : t.takeEntry e = match e with
    | .feed d => if t.mediaEnd then t.raiseFault .mediaEnd (.mediaEnd false d 0) (some e) else t.startFeed d
    | .home => t.startHome.settleHome
    | .travel _ _ => (t.startExecuting (some t.motion.params.travelSpeed)).raiseTools
    | .search _ => (t.startExecuting (some t.motion.params.travelSpeed)).raiseTools
    | .cut tool _ _ => (t.startExecuting (some (t.motion.params.toolSpeed tool))).lowerTool tool := by
  unfold State.takeEntry
  rw [shut, if_neg (by decide), within]
  cases e <;> rfl

theorem takeEntry_home : t.takeEntry .home = t.startHome.settleHome := takeEntry_passes shut rfl

theorem takeEntry_travel {p : Producer} {target : BedPos} (homed : t.motion.homed = true)
    (onBed : target.onBed = true) :
    t.takeEntry (.travel p target) = (t.startExecuting (some t.motion.params.travelSpeed)).raiseTools := by
  refine takeEntry_passes shut ?_
  show (if t.motion.homed && target.onBed then none else some target) = none
  rw [homed, onBed]
  rfl

end

/-- A request whose action is known is its reply, then the close. -/
theorem request_acted {i : Instr} {k tag : Byte} {act : State → Acted} {s : State} {a : Acted} (ready : s.ready)
    (wf : i.wellFormed = true) (acted : act s = a) :
    request i (serve k tag act) s = .next (a.st.queueReply k tag a.status a.data a.rate).close := by
  obtain ⟨⟨_, quiet⟩, room⟩ := ready
  subst acted
  rw [request_delivers room wf, begin_quiet quiet]
  rfl

/-! ### CLEAR_FAULT -/

theorem names_iff {r : FaultRecord} {k : FaultKind} : r.names k = true ↔ r.kind = k ∨ r.lastFollowOn = some k := by
  unfold FaultRecord.names
  rw [Bool.or_eq_true, decide_eq_true_eq, decide_eq_true_eq]

/-- A kind that the record names while its line is at its active level (R149). -/
def State.keepsRecord (s : State) (r : FaultRecord) (k : FaultKind) : Prop :=
  r.names k = true ∧ ((k = .estop ∧ s.estopOn = true) ∨ (k = .guard ∧ s.guardOpen = true) ∨
    (k = .mediaEnd ∧ s.mediaEnd = true))

theorem stillActive_some {s : State} {r : FaultRecord} {k : FaultKind} (h : s.stillActive r = some k) :
    s.keepsRecord r k := by
  unfold State.stillActive at h
  simp only [Bool.and_eq_true] at h
  split_ifs at h with estop guard media
  · obtain rfl := Option.some.inj h
    exact ⟨estop.1, .inl ⟨rfl, estop.2⟩⟩
  · obtain rfl := Option.some.inj h
    exact ⟨guard.1, .inr (.inl ⟨rfl, guard.2⟩)⟩
  · obtain rfl := Option.some.inj h
    exact ⟨media.1, .inr (.inr ⟨rfl, media.2⟩)⟩

theorem stillActive_none {s : State} {r : FaultRecord} (h : s.stillActive r = none) (k : FaultKind) :
    ¬s.keepsRecord r k := by
  unfold State.stillActive at h
  simp only [Bool.and_eq_true] at h
  split_ifs at h with estop guard media
  rintro ⟨named, ⟨rfl, on⟩ | ⟨rfl, on⟩ | ⟨rfl, on⟩⟩
  · exact estop ⟨named, on⟩
  · exact guard ⟨named, on⟩
  · exact media ⟨named, on⟩

/-- A record emptied where no settle timer runs and no suspension is taken (R150). -/
theorem clearFault_eq {s : State} (timer : s.cycle.settleTimer = none) (taken : s.cycle.taken = none) :
    s.clearFault = { s with
      cycle := { s.cycle with
        fault := none
        state := if s.cycle.runActive then .held else .idle
        hold := if s.cycle.runActive then some .recover else none }
      bed := { s.bed with beacon := s.cycle.runActive } } := by
  have same : s.withCycle { s.cycle with settleTimer := none, taken := none } = s := by
    rw [← timer, ← taken]
    rfl
  rw [← same]
  unfold State.clearFault
  show (if s.cycle.runActive then _ else _) = _
  cases active : s.cycle.runActive
  · simp only [State.withCycle, active]
    rfl
  · simp only [State.withCycle, active]
    rfl

section
variable {s : State} {r : FaultRecord} (latched : s.cycle.fault = some r)
include latched

theorem actClearFault_kept {k : FaultKind} (kept : s.stillActive r = some k) :
    actClearFault s = { s.answer .stillActive with data := [u8 k.code] } := by
  unfold actClearFault
  rw [latched]
  dsimp only
  rw [kept]

theorem actClearFault_clears (gone : s.stillActive r = none) :
    actClearFault s = s.clearFault.doneWith (faultEntryBytes r) := by
  unfold actClearFault
  rw [latched]
  dsimp only
  rw [gone]

end

/-- Settles O37. -/
theorem clearFaultLeavesHalted : Obligations.ClearFaultLeavesHalted := by
  intro s tag ready safe stands active
  have ⟨⟨settled, quiet⟩, _⟩ := ready
  refine ⟨fun notHalted => request_unchanged ready rfl ?_, fun r latched => ?_⟩
  · unfold actClearFault
    rw [fault_of_safe safe notHalted]
  · have halted : s.cycle.state = .halted := by
      have := fault_isSome_of_safe safe
      rw [latched] at this
      exact eq_of_beq this.symm
    cases kept : s.stillActive r with
    | some k =>
      have act := actClearFault_kept latched kept
      obtain ⟨named, lines⟩ := stillActive_some kept
      have standing := names_iff.mp named
      refine ⟨fun _ => ⟨k, lines, standing, request_answered ready rfl act settled quiet⟩, fun inactive => ?_⟩
      rcases lines with ⟨rfl, on⟩ | ⟨rfl, on⟩ | ⟨rfl, on⟩
      · exact absurd (.inl ⟨standing, on⟩) inactive
      · exact absurd (.inr (.inl ⟨standing, on⟩)) inactive
      · exact absurd (.inr (.inr ⟨standing, on⟩)) inactive
    | none =>
      have act := actClearFault_clears latched kept
      refine ⟨fun lines => ?_, fun _ => ?_⟩
      · rcases lines with ⟨standing, on⟩ | ⟨standing, on⟩ | ⟨standing, on⟩
        · exact absurd ⟨names_iff.mpr standing, .inl ⟨rfl, on⟩⟩ (stillActive_none kept .estop)
        · exact absurd ⟨names_iff.mpr standing, .inr (.inl ⟨rfl, on⟩)⟩ (stillActive_none kept .guard)
        · exact absurd ⟨names_iff.mpr standing, .inr (.inr ⟨rfl, on⟩)⟩ (stillActive_none kept .mediaEnd)
      · rw [clearFault_eq (settleTimer_of_safe safe (by rw [halted]; decide))
          (taken_of_safe safe (by rw [halted]; decide))] at act
        exact request_answered ready rfl act settled quiet

/-! ### HOME -/

section
variable {s : State}

theorem actHome_halted (halted : s.cycle.state = .halted) : actHome s = s.answer .faultLatched := if_pos halted

theorem actHome_notIdle (notHalted : s.cycle.state ≠ .halted) (active : s.cycle.state ≠ .idle) :
    actHome s = s.answer .refusedState := (if_neg notHalted).trans (if_pos active)

/-- Checks 3 and 4 of R94 and the effect. -/
theorem actHome_idle (idle : s.cycle.state = .idle) : actHome s =
    if s.busy then s.answer .busy else if s.guardOpen then s.answer .guardOpen
    else ((s.setCycle .homing).place .home).done := by
  unfold actHome
  rw [idle, if_neg (by decide), if_neg (by decide)]

end

theorem place_empty (s : State) {e : Entry} (empty : s.motion.queue = []) :
    s.place e = s.withMotion { s.motion with queue := [e] } := by
  unfold State.place
  rw [empty]
  rfl

/-- The state behind the take of the HOME that a HOME request places: the axes with a home line on are home (R125). -/
def State.homingTaken (s : State) : State :=
  { s with
    cycle := { s.cycle with state := .homing }
    motion := { s.motion with
      queue := [.home], executing := true, speed := some s.motion.params.travelSpeed, kiss := .raised
      thru := .raised, homing := some ⟨s.homeX, s.homeY⟩ }
    bed := { s.bed with toolKiss := none, toolThru := none } }

theorem homingTaken_eq {s : State} {xOn yOn : Bool} (x : s.homeX = xOn) (y : s.homeY = yOn) : s.homingTaken = { s with
    cycle := { s.cycle with state := .homing }
    motion := { s.motion with
      queue := [.home], executing := true, speed := some s.motion.params.travelSpeed, kiss := .raised
      thru := .raised, homing := some ⟨xOn, yOn⟩ }
    bed := { s.bed with toolKiss := none, toolThru := none } } := by
  rw [← x, ← y]
  rfl

/-- HOME taken between commands in IDLE, the guard shut (R94, R125). -/
theorem exec_home {s : State} {tag : Byte} (ready : s.ready) (safe : s.cycleSafe = true) (idle : s.cycle.state = .idle)
    (still : s.motion.executing = false) (shut : s.guardOpen = false)
    (settles : (s.homingTaken.queueReply 0x20 tag .ok [] none).settleHome.motionSettled = true) :
    exec (.home tag) s = .next (s.homingTaken.queueReply 0x20 tag .ok [] none).settleHome.flush := by
  have empty := queue_empty_of_idle (settled_of_safe safe) still
  have plain := plain_of_safe safe (by rw [idle]; decide) (by rw [idle]; decide) (by rw [idle]; decide)
    (by rw [idle]; decide)
  have act : actHome s = ((s.inCycle .homing).withMotion
      { s.motion with queue := [.home] }).done := by
    rw [actHome_idle idle, if_neg (by rw [State.busy, still]; decide), if_neg (by rw [shut]; decide),
      setCycle_plain plain (by decide) (by decide), place_empty (s.inCycle .homing) empty]
    rfl
  refine (request_acted (i := .home tag) ready rfl act).trans (congrArg Host.Outcome.next ?_)
  generalize made : State.queueReply 0x20 tag _ _ _ _ = t
  have taken : t.takeEntry .home = (s.homingTaken.queueReply 0x20 tag .ok [] none).settleHome := by
    have shut : t.guardOpen = false := by
      rw [← made]
      exact shut
    rw [takeEntry_home shut, ← made]
    rfl
  have same := close_takes_home (t := t) (by rw [← made]; exact still)
    (by rw [← made]; rfl)
    (by rw [taken]; exact settles)
  rw [same, taken]

/-- Both home lines on: the HOME ends at its take (R125). -/
theorem settleHome_both {s : State} (h : s.motion.homing = some ⟨true, true⟩) : s.settleHome = s.completeHome := by
  unfold State.settleHome
  rw [h]

theorem settleHome_open {s : State} {h : Homing} (homing : s.motion.homing = some h)
    (away : (h.xHome && h.yHome) = false) : s.settleHome = s := by
  unfold State.settleHome
  rw [homing]
  match h with
  | ⟨true, true⟩ => exact nomatch away
  | ⟨true, false⟩ => rfl
  | ⟨false, _⟩ => rfl

/-- The completion of the last entry of the queue, a HOME under way (R94, R125). -/
theorem completeHome_eq {s : State} (homing : s.cycle.state = .homing) (plain : s.Plain)
    (queue : s.motion.queue = [.home]) : s.completeHome = { s with
      cycle := { s.cycle with state := .idle }
      motion := { s.motion with
        queue := [], executing := false, head := some ⟨0, 0⟩, homed := true, speed := none, commanded := none
        homing := none, kiss := .raised, thru := .raised }
      bed := { s.bed with toolKiss := none, toolThru := none } } := by
  generalize made : ({ s.motion with
    queue := s.motion.queue.tail, executing := false, speed := none, commanded := none, homing := none
    head := some ⟨0, 0⟩, homed := true } : MotionUnit) = m
  have toIdle : s.completeHome = ((s.withMotion m).setCycle .idle).restTools := by
    rw [← made]
    unfold State.completeHome
    exact congrArg State.restTools (if_pos homing)
  have calm : (s.withMotion m).Plain := ⟨plain.hold, plain.taken, plain.timer, plain.beacon⟩
  rw [toIdle, setCycle_plain calm (by decide) (by decide)]
  unfold State.restTools
  rw [if_pos (by rw [← made]; show s.motion.queue.tail.isEmpty = true; rw [queue]; rfl), ← made]
  show _ = ({ s with
      cycle := { s.cycle with state := .idle }
      motion := { s.motion with
        queue := [Entry.home].tail, executing := false, head := some ⟨0, 0⟩, homed := true, speed := none
        commanded := none, homing := none, kiss := .raised, thru := .raised }
      bed := { s.bed with toolKiss := none, toolThru := none } } : State)
  rw [← queue]
  rfl


/-- A HOME with an axis still to be driven executes (R94, R125). -/
theorem exec_home_drives {s : State} {tag : Byte} (ready : s.ready) (safe : s.cycleSafe = true)
    (idle : s.cycle.state = .idle) (still : s.motion.executing = false) (shut : s.guardOpen = false)
    (away : (s.homeX && s.homeY) = false) :
    exec (.home tag) s = .next (s.homingTaken.queueReply 0x20 tag .ok [] none) := by
  have drives : (s.homingTaken.queueReply 0x20 tag .ok [] none).settleHome =
      s.homingTaken.queueReply 0x20 tag .ok [] none := settleHome_open rfl away
  rw [exec_home ready safe idle still shut (by rw [drives]; rfl), drives]
  exact congrArg Host.Outcome.next (flush_quiet (s := s.homingTaken.queueReply ..) ready.1.2)

/-! ### The ends of a HOME -/

theorem get_setLine (s : State) (i : Fin 8) (l : Line) : (s.setLine i l).bed.lines.get i = l := Table.get_set_self ..

/-- A line that differs from its wire takes the level, reports it where the change is enabled, and acts (R132, R134). -/
theorem takeLevel_change {s : State} {i : Fin 8} (moved : (s.bed.lines.get i).wire ≠ (s.bed.lines.get i).taken) :
    s.takeLevel i = State.lineActs i (s.bed.lines.get i).wire
      (if (if (s.bed.lines.get i).wire then (s.bed.lines.get i).riseEn else (s.bed.lines.get i).fallEn) then
        (s.setLine i (s.bed.lines.get i).take).emit (inputNotice i (s.bed.lines.get i).wire
          (s.setLine i (s.bed.lines.get i).take).levels)
      else s.setLine i (s.bed.lines.get i).take) := if_neg moved

/-- A line at its wire's level, the timer stopped. -/
def Line.at (l : Line) (level : Bool) : Line := { l with taken := level, timer := none }

theorem take_rise {l : Line} (wire : l.wire = true) (silent : l.riseEn = false) : l.take = l.at true := by
  cases l
  subst wire silent
  simp [Line.take, Line.at]

/-- A line that takes its wire's rise without a change enabled, and does what the rise does (R132). -/
theorem takeLevel_rise {s : State} {i : Fin 8} (wire : (s.bed.lines.get i).wire = true)
    (low : (s.bed.lines.get i).taken = false) (silent : (s.bed.lines.get i).riseEn = false) :
    s.takeLevel i = (s.setLine i ((s.bed.lines.get i).at true)).lineActs i true := by
  rw [takeLevel_change (by rw [wire, low]; decide), take_rise wire silent, wire, if_pos rfl, silent]
  rfl

theorem exec_filterExpiry {s : State} (rest : s.atRest) (i : Fin 8) :
    exec (.filterExpiry i) s = .next (s.filterExpires i).close :=
  congrArg (fun u => Host.Outcome.next (State.close (State.filterExpires i u))) (begin_quiet rest.2)

theorem filterExpires_running {s : State} {i : Fin 8} (running : (s.bed.lines.get i).timer ≠ none) :
    s.filterExpires i = s.takeLevel i := if_pos (Option.isSome_iff_ne_none.mpr running)

/-- The line of an axis's home switch (R125). -/
def homeLine : Axis → Fin 8
  | .x => 6
  | .y => 7

/-- A homing with one axis home more. -/
def Homing.reach (h : Homing) : Axis → Homing
  | .x => { h with xHome := true }
  | .y => { h with yHome := true }

theorem lineActs_home {s : State} {h : Homing} (axis : Axis) (executing : s.homeExecuting = true)
    (homing : s.motion.homing = some h) :
    s.lineActs (homeLine axis) true = (s.withMotion { s.motion with homing := some (h.reach axis) }).settleHome := by
  have driven : s.lineActs (homeLine axis) true = s.homeRise axis := by
    cases axis
    · exact if_pos executing
    · exact if_pos executing
  rw [driven]
  unfold State.homeRise
  rw [homing]
  cases axis <;> rfl

theorem homeExecuting_of_queue {s : State} (settled : s.motionSettled = true) (queue : s.motion.queue = [.home]) :
    s.homeExecuting = true := by
  unfold State.homeExecuting
  rw [executingEntry_of_queue settled queue]

/-- The rise of the home line of an axis that a HOME drives: the axis is home, and with the other one home the HOME
completes (R125). -/
theorem exec_home_rise {s : State} {h : Homing} {axis : Axis} (rest : s.atRest) (queue : s.motion.queue = [.home])
    (driven : s.motion.homing = some h) (timer : (s.bed.lines.get (homeLine axis)).timer ≠ none)
    (wire : (s.bed.lines.get (homeLine axis)).wire = true) (low : (s.bed.lines.get (homeLine axis)).taken = false)
    (silent : (s.bed.lines.get (homeLine axis)).riseEn = false) :
    (((h.reach axis).xHome && (h.reach axis).yHome) = false →
      exec (.filterExpiry (homeLine axis)) s =
        .next ((s.setLine (homeLine axis) ((s.bed.lines.get (homeLine axis)).at true)).withMotion
          { s.motion with homing := some (h.reach axis) })) ∧
    (s.cycle.state = .homing → s.Plain → h.reach axis = ⟨true, true⟩ →
      exec (.filterExpiry (homeLine axis)) s = .next { s with
        cycle := { s.cycle with state := .idle }
        motion := { s.motion with
          queue := [], executing := false, head := some ⟨0, 0⟩, homed := true, speed := none, commanded := none
          homing := none, kiss := .raised, thru := .raised }
        bed := { s.bed with
          lines := s.bed.lines.set (homeLine axis) ((s.bed.lines.get (homeLine axis)).at true), toolKiss := none
          toolThru := none } }) := by
  let risen := s.setLine (homeLine axis) ((s.bed.lines.get (homeLine axis)).at true)
  let reached := risen.withMotion { s.motion with homing := some (h.reach axis) }
  have acts : exec (.filterExpiry (homeLine axis)) s = .next reached.settleHome.close := by
    rw [exec_filterExpiry rest, filterExpires_running timer, takeLevel_rise wire low silent,
      lineActs_home (s := risen) axis (homeExecuting_of_queue (s := risen) rest.1 queue) driven]
    rfl
  refine ⟨fun away => ?_, fun homing plain home => ?_⟩
  · rw [acts, settleHome_open (s := reached) rfl away]
    exact congrArg Host.Outcome.next (close_rest reached rest)
  · have both : reached.motion.homing = some ⟨true, true⟩ := congrArg some home
    rw [acts, settleHome_both both, completeHome_eq (s := reached) homing
      ⟨plain.hold, plain.taken, plain.timer, plain.beacon⟩ queue]
    exact congrArg Host.Outcome.next (close_rest _ ⟨rfl, rest.2⟩)

/-! ### JOG -/

theorem standing_iff {s : State} :
    s.standing = true ↔ s.cycle.state = .idle ∨ s.cycle.state = .suspended ∨ s.cycle.state = .held := by
  unfold State.standing
  simp only [Bool.or_eq_true, decide_eq_true_eq, or_assoc]

theorem not_halted_of_standing {s : State} (standing : s.standing = true) : s.cycle.state ≠ .halted := by
  intro halted
  have := standing_iff.mp standing
  rw [halted] at this
  exact absurd this (by decide)

theorem onBed_nat_iff {x y : Nat} : (BedPos.mk x y).onBed = true ↔ x ≤ 165000 ∧ y ≤ 260000 := by
  unfold BedPos.onBed
  simp only [Bool.and_eq_true, decide_eq_true_eq]
  have width : Config.bedX = 165000 := rfl
  have height : Config.bedY = 260000 := rfl
  omega

theorem queueBusy_iff {s : State} (settled : s.motionSettled = true) : s.queueBusy = true ↔ s.motion.queue ≠ [] := by
  unfold State.queueBusy State.busy
  rw [eq_of_beq settled, Bool.or_self, Bool.not_eq_true', List.isEmpty_eq_false_iff]

section
variable {s : State} {x y : Word}

theorem actJog_notStanding (notHalted : s.cycle.state ≠ .halted) (moving : ¬s.standing = true) :
    actJog x y s = s.answer .refusedState :=
  (if_neg notHalted).trans (if_pos (by rw [Bool.not_eq_true'] ; exact Bool.eq_false_iff.mpr moving))

/-- Checks 3 to 6 of R114 and the effect. -/
theorem actJog_standing (standing : s.standing = true) : actJog x y s =
    if !(bedPosOf x y).onBed then s.answer .badArg
    else if !s.motion.homed then s.answer .notHomed
    else if s.guardOpen then s.answer .guardOpen
    else if s.queueBusy then s.answer .busy
    else (s.place (.travel .cycle (bedPosOf x y))).done := by
  unfold actJog
  rw [if_neg (not_halted_of_standing standing), standing]
  rfl

end

/-- A TRAVEL taken: it executes with the tools raised (R120, R121). -/
def State.travels (s : State) : State := (s.startExecuting (some s.motion.params.travelSpeed)).raiseTools

/-- A request that leaves a TRAVEL at the head of the queue of an idle motion unit (R120). -/
theorem exec_travel {i : Instr} {k tag : Byte} {act : State → Acted} {s u : State} {p : Producer} {target : BedPos}
    {rest : List Entry} (ready : s.ready) (wf : i.wellFormed = true) (acted : act s = u.done)
    (queue : u.motion.queue = .travel p target :: rest) (idle : u.motion.executing = false)
    (shut : u.guardOpen = false) (homed : u.motion.homed = true) (quiet : u.link.formed = [])
    (onBed : target.onBed = true) :
    request i (serve k tag act) s = .next (u.travels.queueReply k tag .ok [] none) := by
  refine (request_acted ready wf acted).trans (congrArg Host.Outcome.next ?_)
  generalize made : State.queueReply k tag _ _ _ _ = t
  have taken : t.takeEntry (.travel p target) = u.travels.queueReply k tag .ok [] none := by
    have shut : t.guardOpen = false := by
      rw [← made]
      exact shut
    have homed : t.motion.homed = true := by
      rw [← made]
      exact homed
    rw [takeEntry_travel shut homed onBed, ← made]
    rfl
  have closes := close_takes (t := t) (e := .travel p target) (rest := rest) (by rw [← made]; exact idle)
    (by rw [← made]; exact queue) nofun
  rw [closes, taken]
  exact flush_quiet (s := u.travels.queueReply ..) quiet

theorem exec_moveCompletion {s : State} (rest : s.atRest) : exec .moveCompletion s = .next s.moveCompletes.close :=
  congrArg (fun u => Host.Outcome.next (State.close (State.moveCompletes u))) (begin_quiet rest.2)

/-- The executing entry gone from the queue, the head at its target (R123 step 2). -/
def State.arrived (target : BedPos) (s : State) : State :=
  s.endEntry.withMotion { s.endEntry.motion with head := some target }

theorem moveCompletes_cycle {s : State} {target : BedPos} (settled : s.motionSettled = true)
    (queue : s.motion.queue = [.travel .cycle target]) : s.moveCompletes = (s.arrived target).restTools := by
  unfold State.moveCompletes
  rw [executingEntry_of_queue settled queue]
  rfl

theorem restTools_empty {s : State} (empty : s.motion.queue = []) : s.restTools = s.raiseTools :=
  if_pos (by rw [empty]; rfl)

/-- The last entry gone from the queue, the tools raised (R121, R123). -/
def MotionUnit.finished (m : MotionUnit) (target : BedPos) : MotionUnit :=
  { m with
    queue := [], executing := false, head := some target, speed := none, commanded := none, homing := none
    kiss := .raised, thru := .raised }

/-- The motion unit at the end of its last entry (R123 step 2). -/
def MotionUnit.endedAt (m : MotionUnit) (target : BedPos) : MotionUnit :=
  { m with
    queue := [], executing := false, head := some target, speed := none, commanded := none, homing := none }

theorem arrived_last {s : State} {e : Entry} {target : BedPos} (queue : s.motion.queue = [e]) :
    s.arrived target = s.withMotion (s.motion.endedAt target) := by
  have tail : s.motion.queue.tail = [] := by
    rw [queue]
    rfl
  unfold MotionUnit.endedAt
  rw [← tail]
  rfl

theorem raiseTools_arrived {s : State} {e : Entry} {target : BedPos} (queue : s.motion.queue = [e]) :
    (s.arrived target).raiseTools = { s with
      motion := s.motion.finished target
      bed := { s.bed with toolKiss := none, toolThru := none } } := by
  rw [arrived_last queue]
  rfl

/-- Settles O38. -/
theorem homeAndJogMove : Obligations.HomeAndJogMove := by
  refine ⟨fun s tag ready safe => ?_, ⟨fun s tag x y ready => ?_, fun s target rest queue => ?_⟩,
    fun s tag ready safe idle still shut => ?_, fun s h axis rest safe homing queue driven => ?_⟩
  · intro answer
    have refused {status : Status} (act : actHome s = s.answer status) : answer status :=
      request_unchanged ready rfl act
    refine ⟨fun halted => refused (actHome_halted halted), fun notHalted active =>
      refused (actHome_notIdle notHalted active), fun idle => ?_⟩
    have act := actHome_idle idle
    refine ⟨fun busy => refused (act.trans (if_pos busy)), fun still open_ => refused ?_,
      fun still shut xOff yOff => ?_⟩
    · exact act.trans ((if_neg (Bool.eq_false_iff.mp still)).trans (if_pos open_))
    · have away : (s.homeX && s.homeY) = false := by
        show ((s.bed.lines.get 6).taken && (s.bed.lines.get 7).taken) = false
        rw [xOff]
        rfl
      rw [exec_home_drives ready safe idle still shut away, homingTaken_eq xOff yOff]
  · intro answer standing onBed
    have refused {status : Status} (act : actJog x y s = s.answer status) : answer status :=
      request_unchanged ready rfl act
    have settled := ready.1.1
    have isOnBed : (bedPosOf x y).onBed = true ↔ onBed := onBed_nat_iff
    refine ⟨fun halted => refused (if_pos halted), fun notHalted moving => refused (actJog_notStanding notHalted
      (standing_iff.not.mpr moving)), fun stands off => ?_, fun stands on lost => ?_, fun stands on homed open_ => ?_,
      fun stands on homed shut queued => ?_, fun stands on homed shut empty => ?_⟩
    all_goals have act := actJog_standing (x := x) (y := y) (standing_iff.mpr stands)
    · exact refused (act.trans (if_pos (by rw [Bool.eq_false_iff.mpr (isOnBed.not.mpr off)]; rfl)))
    all_goals rw [isOnBed.mpr on, if_neg (by decide)] at act
    · exact refused (act.trans (if_pos (by rw [lost]; rfl)))
    all_goals rw [homed, if_neg (by decide)] at act
    · exact refused (act.trans (if_pos open_))
    all_goals rw [show s.guardOpen = false from shut, if_neg (by decide)] at act
    · exact refused (act.trans (if_pos ((queueBusy_iff settled).mpr queued)))
    · rw [if_neg ((queueBusy_iff settled).not.mpr (not_not.mpr empty)), place_empty s empty] at act
      exact exec_travel (i := .jog tag x y) ready rfl act rfl (not_executing_of_empty (s := s) settled empty) shut homed
        ready.1.2 (isOnBed.mpr on)
  · rw [exec_moveCompletion rest, moveCompletes_cycle rest.1 queue, restTools_empty (by
      show s.motion.queue.tail = []
      rw [queue]
      rfl), raiseTools_arrived queue]
    exact congrArg Host.Outcome.next (close_rest _ ⟨rfl, rest.2⟩)
  · intro xOn yOn
    refine ⟨fun away => exec_home_drives ready safe idle still shut away, fun x y => ?_⟩
    have plain : s.Plain := plain_of_safe safe (by rw [idle]; decide) (by rw [idle]; decide) (by rw [idle]; decide)
      (by rw [idle]; decide)
    have both : s.homingTaken.motion.homing = some ⟨true, true⟩ := by
      rw [homingTaken_eq x y]
    let reply := s.homingTaken.queueReply 0x20 tag .ok [] none
    have ended : reply.settleHome = _ := (settleHome_both (s := reply) both).trans
      (completeHome_eq (s := reply) rfl ⟨plain.hold, plain.taken, plain.timer, plain.beacon⟩ rfl)
    have same : reply.settleHome.flush = reply.settleHome := flush_quiet (by rw [ended]; exact ready.1.2)
    refine ⟨reply.settleHome, s.homingTaken.digest, (exec_home ready safe idle still shut (by rw [ended]; rfl)).trans
      (congrArg Host.Outcome.next same), ?_, ?_, ?_, ?_⟩
    · rw [ended]
      show ({ s.cycle with state := .idle } : CycleControl) = s.cycle
      rw [← idle]
    · rw [ended]
      rfl
    · rw [ended]
      rfl
    · rw [ended]
      rfl
  · intro i other l lines timer wire low silent
    have settled := rest.1
    have plain : s.Plain := plain_of_safe safe (by rw [homing]; decide) (by rw [homing]; decide)
      (by rw [homing]; decide) (by rw [homing]; decide)
    obtain ⟨xHome, yHome⟩ := h
    cases axis with
    | x =>
      have risen := exec_home_rise (axis := .x) rest queue driven timer wire low silent
      refine ⟨fun away => risen.1 (by rw [show yHome = false from away]; rfl) |>.trans ?_, fun home =>
        risen.2 homing plain (by rw [show yHome = true from home]; rfl)⟩
      rw [show yHome = false from away]
      rfl
    | y =>
      have risen := exec_home_rise (axis := .y) rest queue driven timer wire low silent
      refine ⟨fun away => risen.1 (by rw [show xHome = false from away]; rfl) |>.trans ?_, fun home =>
        risen.2 homing plain (by rw [show xHome = true from home]; rfl)⟩
      rw [show xHome = false from away]
      rfl

/-! ### TEST_CUT -/

/-- The four cuts of the test square from a corner (R113). -/
def squareCuts (tool : Tool) (a : BedPos) (n : Int) : List Entry :=
  [.cut tool ⟨a.x + n, a.y⟩ none, .cut tool ⟨a.x + n, a.y + n⟩ none, .cut tool ⟨a.x, a.y + n⟩ none, .cut tool a none]

/-- The queue replaced. -/
def State.queued (q : List Entry) (s : State) : State := s.withMotion { s.motion with queue := q }

theorem place_queued (s : State) {q : List Entry} (e : Entry) (room : q.length < Config.motionPlaces) :
    (s.queued q).place e = s.queued (q ++ [e]) := if_pos room

/-- The cycle in TESTCUT, the state kept as the state before it (R113). -/
def State.inTestCut (s : State) : State :=
  { s with
    cycle := { s.cycle with
      state := .testcut, before := some ⟨s.cycle.state, s.cycle.hold, s.cycle.taken⟩, hold := none, taken := none
      testCuts := 0 }
    bed := { s.bed with beacon := false } }

theorem setCycle_testcut {s : State} (timer : s.cycle.settleTimer = none) :
    (s.setCycle .testcut).withCycle { (s.setCycle .testcut).cycle with
      before := some ⟨s.cycle.state, s.cycle.hold, s.cycle.taken⟩, testCuts := 0 } = s.inTestCut := by
  have same : s.withCycle { s.cycle with settleTimer := none } = s := by
    rw [← timer]
    rfl
  rw [← same]
  rfl

/-- A test cut begun with an empty queue, no settle timer running (R113). -/
theorem startTestCut_eq {s : State} (tool : Tool) (size : Nat) (a : BedPos) (empty : s.motion.queue = [])
    (timer : s.cycle.settleTimer = none) :
    s.startTestCut tool size a = s.inTestCut.queued (.travel .cycle a :: squareCuts tool a size) := by
  have same : s.inTestCut.queued [] = s.inTestCut := by
    unfold State.queued
    rw [← show s.inTestCut.motion.queue = [] from empty]
    rfl
  unfold State.startTestCut
  dsimp only
  rw [setCycle_testcut timer, ← same, place_queued _ _ (by decide), place_queued _ _ (by simp +decide),
    place_queued _ _ (by simp +decide), place_queued _ _ (by simp +decide), place_queued _ _ (by simp +decide)]
  rfl

theorem toolOf_none {b : Byte} (h : 1 < b.toNat) : toolOf b = none := by
  unfold toolOf
  rw [if_neg (fun e => by rw [e] at h; exact absurd h (by decide)),
    if_neg (fun e => by rw [e] at h; exact absurd h (by decide))]

theorem exists_toolOf {b : Byte} (h : b.toNat ≤ 1) : ∃ t, toolOf b = some t := by
  rcases Nat.le_one_iff_eq_zero_or_eq_one.mp h with zero | one
  · exact ⟨.kiss, toolOf_code .kiss zero⟩
  · exact ⟨.thru, toolOf_code .thru one⟩

/-- Check 3 of R113. -/
theorem testSquareOf_some {tool : Byte} {size : Half} {x y : Word} {t : Tool} (named : toolOf tool = some t)
    (least : 500 ≤ size.toNat) (most : size.toNat ≤ 2500) (right : x.toNat + size.toNat ≤ 165000)
    (top : y.toNat + size.toNat ≤ 260000) :
    testSquareOf tool size x y = some (t, size.toNat, ⟨x.toNat, y.toNat⟩) := by
  unfold testSquareOf
  rw [named]
  exact if_pos ⟨least, most, onBed_nat_iff.mpr ⟨by omega, by omega⟩, onBed_nat_iff.mpr ⟨right, top⟩⟩

theorem testSquareOf_none {tool : Byte} {size : Half} {x y : Word}
    (wrong : ¬(tool.toNat ≤ 1 ∧ 500 ≤ size.toNat ∧ size.toNat ≤ 2500 ∧ x.toNat + size.toNat ≤ 165000 ∧
      y.toNat + size.toNat ≤ 260000)) : testSquareOf tool size x y = none := by
  unfold testSquareOf
  rcases Nat.lt_or_ge 1 tool.toNat with above | small
  · rw [toolOf_none above]
  · cases named : toolOf tool with
    | none => rfl
    | some t =>
      refine if_neg ?_
      rintro ⟨least, most, _, corner⟩
      obtain ⟨right, top⟩ := onBed_nat_iff.mp corner
      exact wrong ⟨small, least, most, right, top⟩

section
variable {s : State} {tool : Byte} {size : Half} {x y : Word}

theorem actTestCut_notStanding (notHalted : s.cycle.state ≠ .halted) (moving : ¬s.standing = true) :
    actTestCut tool size x y s = s.answer .refusedState :=
  (if_neg notHalted).trans (if_pos (by rw [Bool.not_eq_true'] ; exact Bool.eq_false_iff.mpr moving))

theorem actTestCut_standing (standing : s.standing = true) : actTestCut tool size x y s =
    match testSquareOf tool size x y with
    | none => s.answer .badArg
    | some (t, n, p) =>
      if !s.motion.homed then s.answer .notHomed
      else if s.guardOpen then s.answer .guardOpen
      else if s.queueBusy then s.answer .busy
      else (s.startTestCut t n p).done := by
  unfold actTestCut
  rw [if_neg (not_halted_of_standing standing), standing]
  rfl

end

/-- The state before a test cut brought back, the tools raised (R113). -/
def State.testCutEnded (b : Before) (s : State) : State :=
  { s with
    cycle := { s.cycle with state := b.state, hold := b.hold, taken := b.taken, before := none, testCuts := 0 }
    motion := { s.motion with kiss := .raised, thru := .raised }
    bed := { s.bed with toolKiss := none, toolThru := none, beacon := decide (b.state = .held) } }

theorem raiseTools_testCutEnded (b : Before) (s : State) : (s.testCutEnded b).raiseTools = s.testCutEnded b := rfl

theorem endTestCut_eq {s : State} {b : Before} (kept : s.cycle.before = some b) (timer : s.cycle.settleTimer = none)
    (stood : b.state = .idle ∨ b.state = .suspended ∨ b.state = .held) : s.endTestCut = s.testCutEnded b := by
  have restores : s.endTestCut = (s.raiseTools.setCycle b.state).withCycle
      { (s.raiseTools.setCycle b.state).cycle with
        hold := b.hold, taken := b.taken, before := none, testCuts := 0 } := by
    unfold State.endTestCut
    dsimp only
    rw [show s.raiseTools.cycle.before = some b from kept]
  have same : s.withCycle { s.cycle with settleTimer := none } = s := by
    rw [← timer]
    rfl
  rw [restores, ← same]
  obtain ⟨state, hold, taken⟩ := b
  rcases stood with h | h | h
  all_goals
    dsimp only at h
    subst h
    rfl

/-- The fourth CUT of the square ends the test cut and brings back the state before it (R113). -/
theorem moveCompletes_lastTestCut {s : State} {t : Tool} {target : BedPos} {b : Before} (safe : s.cycleSafe = true)
    (state : s.cycle.state = .testcut) (third : s.cycle.testCuts = 3) (kept : s.cycle.before = some b)
    (queue : s.motion.queue = [.cut t target none]) : s.moveCompletes = { s with
      cycle := { s.cycle with
        state := b.state, hold := b.hold, taken := b.taken, before := none, testCuts := 0 }
      motion := s.motion.finished target
      bed := { s.bed with toolKiss := none, toolThru := none, beacon := decide (b.state = .held) } } := by
  have completes : s.moveCompletes = (s.arrived target).testCutCompletion.restTools := by
    unfold State.moveCompletes
    rw [executingEntry_of_queue (settled_of_safe safe) queue]
    rfl
  have ends : (s.arrived target).testCutCompletion = (s.arrived target).endTestCut :=
    (if_pos state).trans (if_pos third)
  have timer : s.cycle.settleTimer = none := settleTimer_of_safe safe (by rw [state]; decide)
  have tail : s.motion.queue.tail = [] := by
    rw [queue]
    rfl
  rw [completes, ends, endTestCut_eq (s := s.arrived target) kept timer (before_of_safe safe kept),
    restTools_empty (s := (s.arrived target).testCutEnded b) tail, raiseTools_testCutEnded, arrived_last queue]
  rfl

/-- Settles O39. -/
theorem testCutAndReturn : Obligations.TestCutAndReturn := by
  refine ⟨fun s tag tool size x y t ready safe stands named least most right top homed shut empty => ?_,
    fun s t target b rest safe state third kept queue => ?_, fun s tag tool size x y ready => ?_⟩
  · intro a n
    have timer : s.cycle.settleTimer = none := settleTimer_of_safe safe (by
      intro measuring
      rw [measuring] at stands
      exact absurd stands (by decide))
    have act := actTestCut_standing (tool := tool) (size := size) (x := x) (y := y) (standing_iff.mpr stands)
    rw [testSquareOf_some (toolOf_code t named) least most right top] at act
    dsimp only at act
    rw [homed, if_neg (by decide), if_neg (by rw [show s.guardOpen = false from shut]; decide),
      if_neg ((queueBusy_iff ready.1.1).not.mpr (not_not.mpr empty)), startTestCut_eq t _ _ empty timer] at act
    exact exec_travel (i := .testCut tag tool size x y) ready rfl act rfl
      (not_executing_of_empty (s := s) ready.1.1 empty) shut homed
      ready.1.2 (onBed_nat_iff.mpr ⟨by omega, by omega⟩)
  · rw [exec_moveCompletion rest, moveCompletes_lastTestCut safe state third kept queue]
    exact congrArg Host.Outcome.next (close_rest _ ⟨rfl, rest.2⟩)
  · intro answer standing square
    have refused {status : Status} (act : actTestCut tool size x y s = s.answer status) : answer status :=
      request_unchanged ready rfl act
    refine ⟨fun halted => refused (if_pos halted), fun notHalted moving => refused (actTestCut_notStanding notHalted
      (standing_iff.not.mpr moving)), fun stands wrong => ?_, fun stands right lost => ?_,
      fun stands right homed open_ => ?_, fun stands right homed shut queued => ?_⟩
    all_goals have act := actTestCut_standing (tool := tool) (size := size) (x := x) (y := y) (standing_iff.mpr stands)
    · rw [testSquareOf_none wrong] at act
      exact refused act
    all_goals
      obtain ⟨small, least, most, wide, high⟩ := right
      obtain ⟨t, named⟩ := exists_toolOf small
      rw [testSquareOf_some named least most wide high] at act
      dsimp only at act
    · exact refused (act.trans (if_pos (by rw [lost]; rfl)))
    all_goals rw [homed, if_neg (by decide)] at act
    · exact refused (act.trans (if_pos open_))
    · rw [show s.guardOpen = false from shut, if_neg (by decide)] at act
      exact refused (act.trans (if_pos ((queueBusy_iff ready.1.1).mpr queued)))

end Sys2Proof.Machine

/-! STOP_CUT, the marks of a span made UNREAD, SKIP_PANEL (R63, R85, R90, R111, R112). -/

namespace Sys2Proof.Machine

/-! ### The marks of a span changed -/

/-- The marks of a span changed by `f`, the bands of the span UNCHECKED: what an opening and an invalidation do. -/
def MarkUnit.respan (mu : MarkUnit) (sp : Span) (f : Mark → Mark) : MarkUnit :=
  (mu.withRows (mapSpan sp f mu.rows)).uncheckSpan sp

theorem mapSpan_eq (sp : Span) (f : Mark → Mark) (rows : List MarkRow) : mapSpan sp f rows =
    rows.mapIdx fun i r => if sp.first ≤ i ∧ i ≤ sp.last then ⟨f r.left, f r.right⟩ else r := by
  unfold mapSpan Span.has
  simp only [Bool.and_eq_true, decide_eq_true_eq]

theorem getElem?_mapSpan_outside {sp : Span} {i : Nat} (outside : i < sp.first ∨ sp.last < i) (f : Mark → Mark)
    (rows : List MarkRow) : (mapSpan sp f rows)[i]? = rows[i]? := by
  rw [mapSpan_eq, List.getElem?_mapIdx]
  cases rows[i]? with
  | none => rfl
  | some r => exact congrArg some (if_neg (by omega))

theorem readingChanged_same {old new : List MarkRow} {i : Nat} (same : new[i]? = old[i]?) :
    readingChanged old new i = false := by
  unfold readingChanged
  rw [same]
  cases old[i]? with
  | none => rfl
  | some r =>
    show (!(r.left.sameReading r.left && r.right.sameReading r.right)) = false
    unfold Mark.sameReading
    simp

theorem getElem?_bands_respan (mu : MarkUnit) (sp : Span) (f : Mark → Mark) (i : Nat) :
    (mu.respan sp f).bands[i]? = mu.bands[i]?.map fun g =>
      if sp.first ≤ i ∧ i < sp.last then .unchecked
      else if readingChanged mu.rows (mapSpan sp f mu.rows) i ∨
          readingChanged mu.rows (mapSpan sp f mu.rows) (i + 1) then .unchecked
      else g := by
  unfold MarkUnit.respan MarkUnit.uncheckSpan MarkUnit.withRows
  simp only [List.getElem?_mapIdx, Option.map_map, Function.comp_def, Bool.and_eq_true, Bool.or_eq_true,
    decide_eq_true_eq]

theorem bands_respan_inside {mu : MarkUnit} {sp : Span} {i : Nat} (f : Mark → Mark) (exists_ : i < mu.bands.length)
    (least : sp.first ≤ i) (most : i < sp.last) : (mu.respan sp f).bands[i]? = some .unchecked := by
  rw [getElem?_bands_respan, List.getElem?_eq_getElem exists_]
  exact congrArg some (if_pos ⟨least, most⟩)

theorem bands_respan_outside {mu : MarkUnit} {sp : Span} {i : Nat} (f : Mark → Mark)
    (outside : i + 1 < sp.first ∨ sp.last < i) : (mu.respan sp f).bands[i]? = mu.bands[i]? := by
  have here := readingChanged_same (getElem?_mapSpan_outside (sp := sp) (i := i) (by omega) f mu.rows)
  have next := readingChanged_same (getElem?_mapSpan_outside (sp := sp) (i := i + 1) (by omega) f mu.rows)
  rw [getElem?_bands_respan, here, next]
  cases mu.bands[i]? with
  | none => rfl
  | some g => exact congrArg some ((if_neg (by omega)).trans (if_neg (by decide)))

/-! ### STOP_CUT -/

/-- The entries of the planner, which a withdrawal removes (R85). -/
def Entry.ofPlanner (e : Entry) : Bool := e.producer = .planner

theorem remove_empty {m : MotionUnit} (empty : m.queue = []) (which : Entry → Bool) : m.remove which = m := by
  unfold MotionUnit.remove
  split
  · rw [empty]
  · rw [empty]
    show { m with queue := [] } = m
    rw [← empty]

theorem remove_executing {m : MotionUnit} {e : Entry} {rest : List Entry} (executing : m.executing = true)
    (queue : m.queue = e :: rest) (which : Entry → Bool) :
    m.remove which = { m with queue := e :: rest.filter fun x => !which x } := by
  unfold MotionUnit.remove
  rw [if_pos executing, queue]

theorem remove_remove (m : MotionUnit) (which : Entry → Bool) : (m.remove which).remove which = m.remove which := by
  cases executing : m.executing with
  | false =>
    have removed : m.remove which = { m with queue := m.queue.filter fun x => !which x } :=
      if_neg (by rw [executing]; decide)
    rw [removed]
    unfold MotionUnit.remove
    rw [if_neg (by rw [executing]; decide), List.filter_filter]
    simp only [Bool.and_self]
  | true =>
    cases queue : m.queue with
    | nil => rw [remove_empty queue, remove_empty queue]
    | cons e rest =>
      have twice : (rest.filter fun x => !which x).filter (fun x => !which x) = rest.filter fun x => !which x := by
        rw [List.filter_filter]
        simp only [Bool.and_self]
      rw [remove_executing executing queue]
      refine (remove_executing (m := { m with queue := e :: rest.filter fun x => !which x }) executing rfl
        which).trans ?_
      rw [twice]

/-- The state of a run that a stop has ended (R111); `m` is the motion unit without the planner's entries. -/
theorem stopEffect_eq {s : State} {m : MotionUnit} (left : s.motion.remove Entry.ofPlanner = m) :
    s.stopEffect = { s with
      cycle := { s.cycle with
        state := .idle, runActive := false, stopPending := false, hold := none, taken := none, settleTimer := none
        reasons := ⟨false, false, false⟩, halts := 0
        feedJob := if m.queue.any fun e => e.kind = .feed then s.cycle.feedJob else none }
      plan := { s.plan with worklist := s.plan.worklist.map Worklist.rewind }
      marks := s.marks.invalidate s.currentRows
      motion := { m with kiss := .raised, thru := .raised }
      bed := { s.bed with toolKiss := none, toolThru := none, zones := Table.fill 4 false, beacon := false } } := by
  have withdrawn : s.withdrawPlanner = (s.withMotion m).mapWorklist Worklist.rewind := by
    rw [← left]
    rfl
  unfold State.stopEffect
  rw [withdrawn]
  dsimp only [State.raiseTools, State.releaseZones, State.invalidate, State.clearReasons, State.setCycle,
    State.mapWorklist, State.withMotion, State.withBed, State.withMarks, State.withPlan, State.withCycle,
    State.queuedFeedJob]
  rfl

theorem rewind_rewind (w : Worklist) : w.rewind.rewind = w.rewind := rfl

/-- A stop set pending: the reasons cleared, the planner's unstarted entries withdrawn (R111). -/
def State.stopping (s : State) : State :=
  { s with
    cycle := { s.cycle with reasons := ⟨false, false, false⟩, halts := 0, stopPending := true }
    plan := { s.plan with worklist := s.plan.worklist.map Worklist.rewind }
    motion := s.motion.remove Entry.ofPlanner }

theorem setStop_eq (s : State) :
    s.setStop = if s.stopping.runEntryExecuting then s.stopping else s.stopping.stopEffect := rfl

/-- The effect of a stop finds nothing more to withdraw. -/
theorem stopEffect_stopping (s : State) : s.stopping.stopEffect = s.stopEffect := by
  have twice : s.stopping.plan.worklist.map Worklist.rewind = s.plan.worklist.map Worklist.rewind := by
    show (s.plan.worklist.map Worklist.rewind).map Worklist.rewind = _
    rw [Option.map_map]
    rfl
  rw [stopEffect_eq (remove_remove s.motion Entry.ofPlanner), stopEffect_eq rfl, twice]
  rfl

section
variable {s : State}

theorem actStopCut_standing (standing : s.cycle.state = .suspended ∨ s.cycle.state = .held) :
    actStopCut s = s.stopEffect.done := if_pos standing

theorem actStopCut_running (running : s.runUnderWay = true) : actStopCut s =
    if s.cycle.stopPending then s.answer .noChange else s.setStop.done := by
  have moving : ¬(s.cycle.state = .suspended ∨ s.cycle.state = .held) := by
    rcases runUnderWay_iff.mp running with h | h | ⟨h, _⟩ <;> rw [h] <;> decide
  exact (if_neg moving).trans (if_pos running)

theorem actStopCut_still (standing : ¬(s.cycle.state = .suspended ∨ s.cycle.state = .held))
    (still : ¬s.runUnderWay = true) : actStopCut s = s.answer .refusedState :=
  (if_neg standing).trans (if_neg still)

end

theorem filter_ofPlanner (l : List Entry) :
    (l.filter fun x => !x.ofPlanner) = l.filter fun x => decide (x.producer ≠ Producer.planner) := by
  refine List.filter_congr fun x _ => ?_
  unfold Entry.ofPlanner
  rw [decide_not]

/-- A jog ahead of the run's entries stands in front of the queue, or the queue is empty. -/
def State.behindJog (s : State) (ahead : List BedPos) (rest : List Entry) : Prop :=
  ahead.length ≤ 1 ∧ (ahead = [] → rest = []) ∧ s.motion.queue = ahead.map (Entry.travel .cycle) ++ rest

/-- The motion unit that a stop leaves with a jog in front of the run's entries (R111, R119). -/
def MotionUnit.keepingJog (m : MotionUnit) (ahead : List BedPos) (rest : List Entry) : MotionUnit :=
  { m with queue := ahead.map (Entry.travel .cycle) ++ rest.filter fun e => decide (e.producer ≠ Producer.planner) }

section
variable {s : State} {ahead : List BedPos} {rest : List Entry} (settled : s.motionSettled = true)
  (jog : s.behindJog ahead rest)
include settled jog

theorem remove_behindJog : s.motion.remove Entry.ofPlanner = s.motion.keepingJog ahead rest := by
  obtain ⟨short, alone, queue⟩ := jog
  unfold MotionUnit.keepingJog
  rw [← filter_ofPlanner]
  match ahead with
  | [] =>
    rw [alone rfl] at queue ⊢
    rw [remove_empty queue]
    show s.motion = { s.motion with queue := [] }
    rw [← show s.motion.queue = [] from queue]
  | [a] => rw [remove_executing (executing_of_queue settled queue) queue]; rfl

theorem runEntryExecuting_behindJog : s.stopping.runEntryExecuting = false := by
  have removed := remove_behindJog settled jog
  obtain ⟨short, alone, queue⟩ := jog
  unfold State.runEntryExecuting
  rw [show s.stopping.motion = s.motion.keepingJog ahead rest from removed]
  unfold MotionUnit.executingEntry
  match ahead with
  | [] =>
    rw [alone rfl]
    show (match (if s.motion.executing then none else none) with | some e => Entry.ofRun e | none => false) = false
    rw [ite_self]
  | [a] =>
    rw [if_pos (show (s.motion.keepingJog [a] rest).executing = true from executing_of_queue settled queue)]
    rfl

theorem motionSettled_keepingJog :
    (s.motion.executing == !(s.motion.keepingJog ahead rest).queue.isEmpty) = true := by
  obtain ⟨short, alone, queue⟩ := jog
  match ahead with
  | [] =>
    rw [alone rfl] at queue ⊢
    rw [not_executing_of_empty settled queue]
    rfl
  | [a] =>
    rw [executing_of_queue settled queue]
    rfl

end

/-- Settles O43. -/
theorem stopCutEndsRun : Obligations.StopCutEndsRun := by
  refine ⟨fun s tag ready safe => ?_, fun s tag ahead rest ready safe where_ short alone queue => ?_, fun mu => ?_⟩
  · intro answer underWay rewound
    have ⟨⟨settled, quiet⟩, _⟩ := ready
    have refused {status : Status} (act : actStopCut s = s.answer status) : answer status :=
      request_unchanged ready rfl act
    refine ⟨fun still notSuspended notHeld => refused (actStopCut_still (not_or.mpr ⟨notSuspended, notHeld⟩)
      (runUnderWay_iff.not.mpr still)), fun running pending => refused ?_, fun standing empty => ?_,
      fun e rest running free queue ofRun => ?_⟩
    · rw [actStopCut_running (runUnderWay_iff.mpr running), if_pos pending]
    · have timer : s.cycle.settleTimer = none := settleTimer_of_safe safe (by
        rcases standing with h | h <;> rw [h] <;> decide)
      have act := actStopCut_standing standing
      rw [stopEffect_eq (remove_empty empty _)] at act
      refine (request_answered (i := .stopCut tag) (k := 0x24) (t := tag) ready rfl act settled quiet).trans ?_
      dsimp only
      rw [timer, empty]
      rfl
    · have act := actStopCut_running (runUnderWay_iff.mpr running)
      have executing := executing_of_queue settled queue
      have isOfRun : e.ofRun = true := by
        unfold Entry.ofRun
        simpa only [Bool.or_eq_true, decide_eq_true_eq, or_assoc] using ofRun
      have removed := remove_executing executing queue Entry.ofPlanner
      have runs : s.stopping.runEntryExecuting = true := by
        unfold State.runEntryExecuting
        have head : s.stopping.motion.executingEntry = some e := by
          show (s.motion.remove Entry.ofPlanner).executingEntry = some e
          rw [removed]
          exact if_pos executing
        rw [head]
        exact isOfRun
      rw [free, if_neg (by decide), setStop_eq, if_pos runs] at act
      unfold State.stopping at act
      rw [removed] at act
      refine (request_answered (i := .stopCut tag) (k := 0x24) (t := tag) ready rfl act (by
        show (s.motion.executing == true) = true
        rw [executing]
        rfl) quiet).trans ?_
      rw [filter_ofPlanner]
      rfl
  · intro left
    have ⟨⟨settled, quiet⟩, _⟩ := ready
    have jog : s.behindJog ahead rest := ⟨short, alone, queue⟩
    have act : actStopCut s = s.stopEffect.done := by
      rcases where_ with suspended | held | ⟨free, running⟩
      · exact actStopCut_standing (.inl suspended)
      · exact actStopCut_standing (.inr held)
      · rw [actStopCut_running (runUnderWay_iff.mpr running), free, if_neg (by decide), setStop_eq,
          runEntryExecuting_behindJog settled jog, if_neg (by decide), stopEffect_stopping]
    have feeds : ((s.motion.keepingJog ahead rest).queue.any fun e => e.kind = .feed) = true ↔
        ∃ e ∈ left, e.kind = EntryKind.feed := by
      unfold MotionUnit.keepingJog
      simp only [List.any_append, List.any_map, Bool.or_eq_true, List.any_eq_true, decide_eq_true_eq]
      exact ⟨fun h => h.resolve_left (by rintro ⟨a, _, kind⟩; exact nomatch kind), .inr⟩
    rw [stopEffect_eq (remove_behindJog settled jog), if_congr feeds rfl rfl] at act
    exact request_answered (i := .stopCut tag) ready rfl act
      (motionSettled_keepingJog (s := s) settled jog) quiet
  · intro unread
    refine ⟨fun span => ?_, rfl, rfl, fun sp => mapSpan_eq sp Mark.unread mu.rows,
      fun sp i exists_ least most => bands_respan_inside Mark.unread exists_ least most,
      fun sp i outside => bands_respan_outside Mark.unread outside⟩
    cases span <;> rfl

end Sys2Proof.Machine

/-! The worklist that a build makes, and SKIP_PANEL (R75, R79 to R81, R90, R112). -/

namespace Sys2Proof.Machine

/-! ### Live items and the cursor -/

theorem live_iff {it : Item} : it.live = true ↔ it.state = .pending ∨ it.state = .active := by
  unfold Item.live
  simp only [Bool.or_eq_true, decide_eq_true_eq]

theorem firstLiveFrom_eq_none_iff {l : List Item} {i : Nat} : firstLiveFrom i l = none ↔ ∀ it ∈ l, it.live = false := by
  induction l generalizing i with
  | nil => exact ⟨fun _ _ h => absurd h List.not_mem_nil, fun _ => rfl⟩
  | cons it l ih =>
    unfold firstLiveFrom
    cases live : it.live with
    | true =>
      rw [if_pos rfl]
      refine ⟨fun h => (nomatch h), fun h => ?_⟩
      rw [h it List.mem_cons_self] at live
      exact nomatch live
    | false =>
      rw [if_neg (by decide), ih, List.forall_mem_cons]
      exact ⟨fun h => ⟨live, h⟩, fun h => h.2⟩

theorem firstLiveFrom_live {it : Item} (live : it.live = true) (i : Nat) (l : List Item) :
    firstLiveFrom i (it :: l) = some i := by
  unfold firstLiveFrom
  rw [if_pos live]

/-! ### Building a worklist -/

theorem pending_of_planPanel {s : State} {k lastRow : Nat} {i : Slot} {q : PanelPlan}
    (planned : s.planPanel k lastRow i = some q) : ∀ it ∈ q.items, it.state = .pending := by
  unfold State.planPanel at planned
  extract_lets p lp c outline border wps ops pts at planned
  split at planned
  · exact nomatch planned
  · obtain rfl := Option.some.inj planned
    intro it member
    rcases List.mem_append.mp member with weed | outline
    · obtain ⟨pc, _, rfl⟩ := List.mem_map.mp weed
      rfl
    · obtain ⟨pc, _, rfl⟩ := List.mem_map.mp outline
      rfl

theorem pending_of_builtItems {s : State} {k : Nat} : ∀ it ∈ s.builtItems k, it.state = .pending := by
  intro it member
  obtain ⟨q, inOrder, within⟩ := List.mem_flatMap.mp member
  obtain ⟨i, _, planned⟩ := List.mem_filterMap.mp ((sortBy_perm ..).mem_iff.mp inOrder)
  exact pending_of_planPanel planned it within

theorem firstLiveFrom_builtItems (s : State) (k : Nat) :
    firstLiveFrom 0 (s.builtItems k) = if s.builtItems k = [] then none else some 0 := by
  have pending := pending_of_builtItems (s := s) (k := k)
  cases items : s.builtItems k with
  | nil => rfl
  | cons it l =>
    rw [items] at pending
    rw [if_neg nofun]
    exact firstLiveFrom_live (live_iff.mpr (.inl (pending it List.mem_cons_self))) 0 l

/-- The worklist of a build for window `k` (R75). -/
def State.builtWorklist (s : State) (k : Nat) : Worklist :=
  ⟨k, s.builtItems k, false, issueAt (s.builtItems k) (if s.builtItems k = [] then none else some 0), none, false,
    s.plan.weedDistance, s.nest.params.lead + (s.marks.rows.length - 1) * s.nest.params.markPitch⟩

theorem outcome_builtWorklist (s : State) (k : Nat) : (s.builtWorklist k).outcome =
    if s.builtItems k = [] then .empty (s.builtItems k).length else .items (s.builtItems k).length := by
  have pending := pending_of_builtItems (s := s) (k := k)
  show (if (s.builtItems k).any Item.live then EntryOutcome.items (s.builtItems k).length
    else .empty (s.builtItems k).length) = _
  cases items : s.builtItems k with
  | nil => rfl
  | cons it l =>
    rw [items] at pending
    have live := live_iff.mpr (.inl (pending it List.mem_cons_self))
    exact (if_pos (List.any_eq_true.mpr ⟨it, List.mem_cons_self, live⟩)).trans (if_neg nofun).symm

theorem bytes_outcome (items : List Item) :
    (if items = [] then EntryOutcome.empty items.length else .items items.length).bytes =
      (if items = [] then 1 else 0) :: be16 items.length := by
  split <;> rfl

/-- A build of more than 256 items makes no worklist (R81). -/
theorem buildWorklist_full {s : State} (many : 256 < (s.builtItems s.cycle.pointer).length) : s.buildWorklist =
    (s.withPlan { s.plan with worklist := none }, .full (s.builtItems s.cycle.pointer).length) := if_pos many

/-- A build of at most 256 items makes the window's worklist (R75). -/
theorem buildWorklist_fits {s : State} (few : (s.builtItems s.cycle.pointer).length ≤ 256) : s.buildWorklist =
    ((s.withPlan { s.plan with worklist := some (s.builtWorklist s.cycle.pointer) }).emit
        (windowStartNotice s.cycle.pointer (s.builtItems s.cycle.pointer).length),
      (s.builtWorklist s.cycle.pointer).outcome) := by
  have made : (⟨s.cycle.pointer, s.builtItems s.cycle.pointer, false,
      issueAt (s.builtItems s.cycle.pointer) (firstLiveFrom 0 (s.builtItems s.cycle.pointer)), none, false,
      s.plan.weedDistance, s.lastRowV⟩ : Worklist) = s.builtWorklist s.cycle.pointer := by
    rw [firstLiveFrom_builtItems]
    rfl
  rw [← made]
  exact if_neg (Nat.not_lt.mpr few)

/-! ### SKIP_PANEL -/

section
variable {s : State} {slot : Byte}

theorem actSkipPanel_badArg (above : 95 < slot.toNat) : actSkipPanel slot s = s.answer .badArg := by
  unfold actSkipPanel
  rw [slotOf_above above]

variable {i : Slot} (named : slot.toNat = i.val)
include named

theorem actSkipPanel_moving (moving : ¬s.standing = true) : actSkipPanel slot s = s.answer .refusedState := by
  have notStanding := standing_iff.not.mp moving
  unfold actSkipPanel
  rw [slotOf_eq_some named]
  exact if_pos (by tauto)

theorem actSkipPanel_free (standing : s.standing = true) (free : (s.panel i).lock ≠ .committed) :
    actSkipPanel slot s = s.answer .locked := by
  have stands := standing_iff.mp standing
  unfold actSkipPanel
  rw [slotOf_eq_some named]
  exact (if_neg (by tauto)).trans (if_pos free)

/-- Checks 4 and 5 of R112 and the effect. -/
theorem actSkipPanel_committed (standing : s.standing = true) (committed : (s.panel i).lock = .committed) :
    actSkipPanel slot s =
      if (s.panel i).state = .skipped then s.answer .noChange
      else if (s.panel i).state = .cut then s.answer .refusedState
      else if s.heldFor .planFull then
        (s.skipPanel i).buildWorklist.1.doneWith (be16 (s.skipCount i) ++ (s.skipPanel i).buildWorklist.2.bytes)
      else (s.skipPanel i).doneWith (be16 (s.skipCount i)) := by
  have stands := standing_iff.mp standing
  unfold actSkipPanel
  rw [slotOf_eq_some named]
  exact (if_neg (by tauto)).trans (if_neg (not_not.mpr committed))

end

/-- A panel SKIPPED, its worklist as given. -/
def State.skipped (s : State) (i : Slot) (worklist : Option Worklist) : State :=
  { s with
    store := { s.store with panels := s.store.panels.set i { s.panel i with state := .skipped, windowsLeft := none } }
    plan := { s.plan with worklist := worklist } }

theorem skipPanel_eq (s : State) (i : Slot) :
    s.skipPanel i = s.skipped i (s.plan.worklist.map (·.skip i)) := rfl

/-- The items of a worklist with those of a panel that were still to cut SKIPPED (R90). -/
def Worklist.skippedItems (w : Worklist) (i : Slot) : List Item :=
  w.items.map fun it => if it.slot = i && it.live then { it with state := .skipped } else it

theorem skip_eq (w : Worklist) (i : Slot) : w.skip i =
    { w with
      items := w.skippedItems i
      issue := if firstLiveFrom 0 (w.skippedItems i) = w.cursorIndex then w.issue
        else issueAt (w.skippedItems i) (firstLiveFrom 0 (w.skippedItems i)) } := by
  have cases_ : w.skip i = if firstLiveFrom 0 (w.skippedItems i) = w.cursorIndex then
      { w with items := w.skippedItems i } else Worklist.rewind { w with items := w.skippedItems i } := rfl
  rw [cases_]
  split <;> rfl

theorem heldFor_iff {s : State} {r : HoldReason} :
    s.heldFor r = true ↔ s.cycle.state = .held ∧ s.cycle.hold = some r := by
  unfold State.heldFor
  rw [Bool.and_eq_true, decide_eq_true_eq, decide_eq_true_eq]

/-- Settles O44. -/
theorem skipPanelSkips : Obligations.SkipPanelSkips := by
  refine ⟨fun s tag slot ready => ?_, fun s tag slot i ready named held full committed notSkipped notCut => ?_⟩
  · intro answer standing
    have ⟨⟨settled, quiet⟩, _⟩ := ready
    have refused {status : Status} (act : actSkipPanel slot s = s.answer status) : answer status :=
      request_unchanged ready rfl act
    refine ⟨fun above => refused (actSkipPanel_badArg above), fun i named => ⟨fun moving => refused
      (actSkipPanel_moving named (standing_iff.not.mpr moving)), fun stands free => refused
      (actSkipPanel_free named (standing_iff.mpr stands) free), fun stands committed => ?_⟩⟩
    have act := actSkipPanel_committed named (standing_iff.mpr stands) committed
    refine ⟨fun skipped => refused (act.trans (if_pos skipped)), fun cut => refused (act.trans ((if_neg ?_).trans
      (if_pos cut))), fun notSkipped notCut notFull => ?_⟩
    · rw [show (s.panel i).state = .cut from cut]
      decide
    · rw [if_neg notSkipped, if_neg notCut, if_neg (heldFor_iff.not.mpr notFull), skipPanel_eq] at act
      refine ⟨_, _, request_answered (i := .skipPanel tag slot) ready rfl act settled quiet, fun none => ?_,
        fun w listed => ?_⟩
      · unfold State.skipCount
        rw [none]
        exact ⟨rfl, rfl⟩
      · unfold State.skipCount
        rw [listed]
        refine ⟨w.skip i, rfl, ?_⟩
        rw [skip_eq]
        refine ⟨rfl, rfl, ?_, ?_, rfl⟩
        · exact List.countP_eq_length_filter.symm
        · refine List.map_congr_left fun it _ => if_congr ?_ rfl rfl
          rw [Bool.and_eq_true, decide_eq_true_eq, live_iff]
  · intro skipped k items count
    have ⟨⟨settled, quiet⟩, _⟩ := ready
    have act := actSkipPanel_committed named (standing_iff.mpr (.inr (.inr held))) committed
    rw [if_neg notSkipped, if_neg notCut, if_pos (heldFor_iff.mpr ⟨held, full⟩)] at act
    have counted : s.skipCount i = count := by
      unfold State.skipCount
      simp only [count]
      cases s.plan.worklist with
      | none => rfl
      | some w => exact List.countP_eq_length_filter.symm
    rw [counted] at act
    refine ⟨fun many => ?_, fun few => ?_⟩
    · rw [buildWorklist_full (s := s.skipPanel i) many] at act
      exact request_answered ready rfl act settled quiet
    · rw [buildWorklist_fits (s := s.skipPanel i) few, outcome_builtWorklist, bytes_outcome] at act
      exact request_notifies_with (i := .skipPanel tag slot) ready rfl act settled quiet

end Sys2Proof.Machine

/-! Marks given by the host (R66, R67). -/

namespace Sys2Proof.Machine

theorem sideOf_code {b : Byte} {sd : Side} (named : b.toNat = sd.code) : sideOf b = some sd := by
  have same := byte_of_toNat named
  subst same
  cases sd <;> rfl

theorem sideOf_none {b : Byte} (above : 1 < b.toNat) : sideOf b = none := by
  unfold sideOf
  rw [if_neg (fun e => by rw [e] at above; exact absurd above (by decide)),
    if_neg (fun e => by rw [e] at above; exact absurd above (by decide))]

theorem rowCurrent_iff {s : State} {row : Nat} : s.rowCurrent row = true ↔
    ∃ sp, s.currentRows = some sp ∧ sp.first ≤ row ∧ row ≤ sp.last ∧ row < s.marks.rows.length := by
  unfold State.rowCurrent Span.has State.rowCount
  cases s.currentRows with
  | none => exact ⟨fun h => (nomatch h), fun ⟨_, h, _⟩ => (nomatch h)⟩
  | some sp =>
    simp only [Bool.and_eq_true, decide_eq_true_eq, and_assoc]
    exact ⟨fun h => ⟨sp, rfl, h⟩, fun ⟨_, same, h⟩ => by rw [Option.some.inj same]; exact h⟩

/-- One mark replaced and its row's bands UNCHECKED: the change of reading unchecks no other band (R51, R57, R66). -/
theorem setMark_uncheckRow {mu : MarkUnit} {row : Nat} {r : MarkRow} (exists_ : mu.rows[row]? = some r) (side : Side)
    (m : Mark) : (mu.setMark row side m).uncheckRow row = { mu with
      rows := mu.rows.set row (r.set side m)
      bands := mu.bands.mapIdx fun i g => if i = row ∨ i + 1 = row then .unchecked else g } := by
  have kept {i : Nat} (other : i ≠ row) : (mu.rows.set row (r.set side m))[i]? = mu.rows[i]? :=
    List.getElem?_set_ne (Ne.symm other)
  unfold MarkUnit.setMark
  rw [exists_]
  show ({ mu with rows := _, bands := _ } : MarkUnit) = _
  refine congrArg (fun bands => ({ mu with rows := mu.rows.set row (r.set side m), bands := bands } : MarkUnit)) ?_
  show (mu.bands.mapIdx _).mapIdx _ = _
  rw [List.mapIdx_mapIdx]
  refine List.mapIdx_eq_mapIdx_iff.mpr fun i _ => ?_
  simp only [Function.comp_apply, Bool.or_eq_true, decide_eq_true_eq]
  split
  · rfl
  · rename_i apart
    obtain ⟨here, next⟩ := not_or.mp apart
    rw [readingChanged_same (kept here), readingChanged_same (kept next), if_neg (by decide)]

theorem mark_of_row {mu : MarkUnit} {row : Nat} {r : MarkRow} (exists_ : mu.rows[row]? = some r) (side : Side) :
    mu.mark row side = some (r.get side) := by
  unfold MarkUnit.mark
  rw [exists_]
  rfl

theorem get_set (r : MarkRow) (side : Side) (m : Mark) : (r.set side m).get side = m := by cases side <;> rfl

/-- The mark given by the host: its row and its row's bands change (R66). -/
def State.marked (s : State) (row : Nat) (r : MarkRow) (side : Side) (m : Mark) : State :=
  { s with marks := { s.marks with
    rows := s.marks.rows.set row (r.set side m)
    bands := s.marks.bands.mapIdx fun i g => if i = row ∨ i + 1 = row then .unchecked else g } }

theorem giveMark_eq {s : State} {row : Nat} {r : MarkRow} (exists_ : s.marks.rows[row]? = some r) (side : Side)
    (pos : BedPos) : s.giveMark row side pos = s.marked row r side ((r.get side).given s.cycle.pointer pos) := by
  unfold State.giveMark
  rw [mark_of_row exists_ side]
  exact congrArg s.withMarks (setMark_uncheckRow exists_ side _)

theorem markData_marked {s : State} {row : Nat} {r : MarkRow} (exists_ : s.marks.rows[row]? = some r) (side : Side)
    (m : Mark) : (s.marked row r side m).markData row side = markEntry s.nest.params row side m := by
  have inside : row < s.marks.rows.length := (List.getElem?_eq_some_iff.mp exists_).1
  have now : (s.marked row r side m).marks.mark row side = some m := by
    rw [mark_of_row (mu := (s.marked row r side m).marks) (List.getElem?_set_self inside) side, get_set]
  unfold State.markData
  rw [now]
  rfl

section
variable {s : State} {row side : Byte} {x y : Word}

theorem actMarkSet_noSide (above : 1 < side.toNat) : actMarkSet row side x y s = s.answer .badArg := by
  unfold actMarkSet
  rw [sideOf_none above]

theorem actMarkTake_noSide (above : 1 < side.toNat) : actMarkTake row side s = s.answer .badArg := by
  unfold actMarkTake
  rw [sideOf_none above]

variable {sd : Side} (named : side.toNat = sd.code)
include named

/-- The checks of R66 and the effect, on the side that the request names. -/
theorem actMarkSet_side : actMarkSet row side x y s =
    if 99 < row.toNat ∨ !(bedPosOf x y).onBed then s.answer .badArg
    else if !s.standing then s.answer .refusedState
    else if !s.rowCurrent row.toNat then s.answer .badArg
    else
      (s.giveMark row.toNat sd (bedPosOf x y)).doneWith
        ((s.giveMark row.toNat sd (bedPosOf x y)).markData row.toNat sd) := by
  unfold actMarkSet
  rw [sideOf_code named]
  rfl

/-- The checks of R67 before the head position. -/
theorem actMarkTake_side : actMarkTake row side s =
    if 99 < row.toNat then s.answer .badArg
    else if !s.standing then s.answer .refusedState
    else if !s.rowCurrent row.toNat then s.answer .badArg
    else if !s.motion.homed then s.answer .notHomed
    else if s.busy then s.answer .busy
    else match s.motion.head with
      | none => s.answer .notHomed
      | some pos =>
        (s.giveMark row.toNat sd pos).doneWith ((s.giveMark row.toNat sd pos).markData row.toNat sd) := by
  unfold actMarkTake
  rw [sideOf_code named]
  rfl

end

/-- Settles O47. -/
theorem marksGivenByHost : Obligations.MarksGivenByHost := by
  refine ⟨fun s tag row side x y sd ready named => ?_, fun s tag row side x y ready above =>
    ⟨request_unchanged ready rfl (actMarkSet_noSide above), request_unchanged ready rfl (actMarkTake_noSide above)⟩⟩
  intro setAnswer takeAnswer standing onBed current given marked
  have ⟨⟨settled, quiet⟩, _⟩ := ready
  have set := actMarkSet_side (s := s) (row := row) (x := x) (y := y) named
  have take := actMarkTake_side (s := s) (row := row) named
  have setRefused {status : Status} (act : actMarkSet row side x y s = s.answer status) : setAnswer status :=
    request_unchanged ready rfl act
  have takeRefused {status : Status} (act : actMarkTake row side s = s.answer status) : takeAnswer status :=
    request_unchanged ready rfl act
  have isOnBed : (bedPosOf x y).onBed = true ↔ onBed := onBed_nat_iff
  have isCurrent : s.rowCurrent row.toNat = true ↔ current := rowCurrent_iff
  have setPasses (small : row.toNat ≤ 99) (on : onBed) := set.trans (if_neg (by
    rw [isOnBed.mpr on]
    rintro (above | off)
    · omega
    · exact nomatch off))
  refine ⟨fun wrong => setRefused (set.trans (if_pos ?_)), fun above => takeRefused (take.trans (if_pos above)),
    fun small moving => ?_, fun small stands foreign => ?_, fun small stands here => ?_⟩
  · exact wrong.imp_right fun off => by rw [Bool.eq_false_iff.mpr (isOnBed.not.mpr off)]; rfl
  · have still : (!s.standing) = true := by rw [Bool.eq_false_iff.mpr (standing_iff.not.mpr moving)]; rfl
    exact ⟨takeRefused (take.trans ((if_neg (Nat.not_lt.mpr small)).trans (if_pos still))),
      fun on => setRefused ((setPasses small on).trans (if_pos still))⟩
  all_goals
    have still : ¬(!s.standing) = true := by rw [standing_iff.mpr stands]; decide
    have takePasses := take.trans ((if_neg (Nat.not_lt.mpr small)).trans (if_neg still))
  · have away : (!s.rowCurrent row.toNat) = true := by rw [Bool.eq_false_iff.mpr (isCurrent.not.mpr foreign)]; rfl
    exact ⟨takeRefused (takePasses.trans (if_pos away)),
      fun on => setRefused ((setPasses small on).trans ((if_neg still).trans (if_pos away)))⟩
  · have present : ¬(!s.rowCurrent row.toNat) = true := by rw [isCurrent.mpr here]; decide
    have takes := takePasses.trans (if_neg present)
    refine ⟨fun lost => takeRefused (takes.trans (if_pos (by rw [lost]; rfl))), fun homed busy =>
      takeRefused (takes.trans ((if_neg (by rw [homed]; decide)).trans (if_pos busy))), fun r exists_ =>
      ⟨fun on => ?_, fun pos homed idle head => ?_⟩⟩
    · have act := (setPasses small on).trans ((if_neg still).trans (if_neg present))
      rw [giveMark_eq exists_, markData_marked exists_] at act
      exact request_answered ready rfl act settled quiet
    · have act := takes.trans ((if_neg (by rw [homed]; decide)).trans (if_neg (by
        rw [show s.busy = false from idle]; decide)))
      rw [head] at act
      dsimp only at act
      rw [giveMark_eq exists_, markData_marked exists_] at act
      exact request_answered ready rfl act settled quiet

end Sys2Proof.Machine

/-! The readying: choosing a mark, the search placed and taken, suspensions and holds, and the settle timer (R56, R62,
R93, R97, R98, R105). -/

namespace Sys2Proof.Machine

/-! ### Choosing a mark -/

theorem mem_spanMarks {sp : Span} {i : Nat} {side : Side} :
    (i, side) ∈ spanMarks sp ↔ sp.first ≤ i ∧ i ≤ sp.last := by
  unfold spanMarks
  simp only [List.mem_flatMap, List.mem_range, List.mem_cons, List.not_mem_nil, or_false, Prod.mk.injEq]
  constructor
  · rintro ⟨d, below, ⟨rfl, _⟩ | ⟨rfl, _⟩⟩ <;> omega
  · rintro ⟨least, most⟩
    refine ⟨i - sp.first, by omega, ?_⟩
    cases side
    · exact .inl ⟨by omega, rfl⟩
    · exact .inr ⟨by omega, rfl⟩

/-- A mark comes before another in a span: on a lower row, or LEFT before RIGHT (R56). -/
def markBefore (a b : Nat × Side) : Prop := a.1 < b.1 ∨ (a.1 = b.1 ∧ a.2 = .left ∧ b.2 = .right)

theorem pairwise_spanMarks (sp : Span) : (spanMarks sp).Pairwise markBefore := by
  unfold spanMarks
  rw [List.pairwise_flatMap]
  refine ⟨fun d _ => ?_, List.pairwise_lt_range.imp fun {a b} less x inA y inB => ?_⟩
  · exact List.pairwise_pair.mpr (.inr ⟨rfl, rfl, rfl⟩)
  · simp only [List.mem_cons, List.not_mem_nil, or_false] at inA inB
    refine .inl ?_
    rcases inA with rfl | rfl <;> rcases inB with rfl | rfl <;> exact Nat.add_lt_add_left less _

/-- The first of a list that ascends by an order, among those that pass a test. -/
theorem find?_eq_some_of_pairwise {α : Type} {before : α → α → Prop} {l : List α} (asc : l.Pairwise before)
    {test : α → Bool} (irrefl : ∀ a, ¬before a a) (asymm : ∀ a b, before a b → ¬before b a) (a : α) :
    l.find? test = some a ↔ a ∈ l ∧ test a = true ∧ ∀ b ∈ l, before b a → test b = false := by
  induction l with
  | nil => exact ⟨fun h => (nomatch h), fun ⟨h, _⟩ => absurd h List.not_mem_nil⟩
  | cons c l ih =>
    obtain ⟨first, rest⟩ := List.pairwise_cons.mp asc
    cases passes : test c with
    | true =>
      rw [List.find?_cons_of_pos passes]
      constructor
      · intro h
        obtain rfl := Option.some.inj h
        refine ⟨List.mem_cons_self, passes, fun b member less => ?_⟩
        rcases List.mem_cons.mp member with rfl | later
        · exact absurd less (irrefl _)
        · exact absurd less (asymm _ _ (first b later))
      · rintro ⟨member, _, least⟩
        rcases List.mem_cons.mp member with rfl | later
        · rfl
        · rw [least c List.mem_cons_self (first a later)] at passes
          exact nomatch passes
    | false =>
      rw [List.find?_cons_of_neg (by rw [passes]; decide), ih rest]
      constructor
      · rintro ⟨member, test_, least⟩
        refine ⟨List.mem_cons_of_mem _ member, test_, fun b inList less => ?_⟩
        rcases List.mem_cons.mp inList with rfl | later
        · exact passes
        · exact least b later less
      · rintro ⟨member, test_, least⟩
        rcases List.mem_cons.mp member with rfl | later
        · rw [test_] at passes
          exact nomatch passes
        · exact ⟨later, test_, fun b inList => least b (List.mem_cons_of_mem _ inList)⟩

/-- The first mark of a span in a state (R56). -/
theorem firstIn_eq_some_iff {mu : MarkUnit} {sp : Span} (fixed : mu.span = some sp) {st : MarkState} {i : Nat}
    {side : Side} : mu.firstIn st = some (i, side) ↔ (sp.first ≤ i ∧ i ≤ sp.last) ∧
      (mu.mark i side).map (·.state) = some st ∧
      ∀ j other, (sp.first ≤ j ∧ j ≤ sp.last) → markBefore (j, other) (i, side) →
        ¬(mu.mark j other).map (·.state) = some st := by
  unfold MarkUnit.firstIn
  rw [fixed]
  dsimp only
  rw [find?_eq_some_of_pairwise (pairwise_spanMarks sp) (by
    rintro ⟨i, side⟩ (less | ⟨_, left, right⟩)
    · exact absurd less (Nat.lt_irrefl _)
    · dsimp only at left right
      rw [left] at right
      exact nomatch right) (by
    rintro ⟨i, a⟩ ⟨j, b⟩ (less | ⟨same, left, right⟩) (back | ⟨_, left', right'⟩) <;> dsimp only at *
    · omega
    · omega
    · omega
    · rw [left] at right'
      exact nomatch right'), mem_spanMarks, decide_eq_true_eq]
  refine and_congr_right fun _ => and_congr_right fun _ => ⟨fun h j other inSpan less => ?_, fun h b member less => ?_⟩
  · exact of_decide_eq_false (h (j, other) (mem_spanMarks.mpr inSpan) less)
  · exact decide_eq_false (h b.1 b.2 (mem_spanMarks.mp member) less)

theorem firstIn_first {mu : MarkUnit} {sp : Span} {st : MarkState} {m : Mark} (fixed : mu.span = some sp)
    (some_ : sp.first ≤ sp.last) (mark : mu.mark sp.first .left = some m) (state : m.state = st) :
    mu.firstIn st = some (sp.first, .left) := by
  refine (firstIn_eq_some_iff fixed).mpr ⟨⟨Nat.le_refl _, some_⟩, by rw [mark, ← state]; rfl, ?_⟩
  rintro j other ⟨least, _⟩ (less | ⟨_, _, right⟩)
  · exact absurd less (Nat.not_lt.mpr least)
  · exact nomatch right

/-- The first row of a span has no row below it in the span: its searches are centred on the nominal position (R56). -/
theorem searchCentre_first {mu : MarkUnit} {sp : Span} (fixed : mu.span = some sp) (lp : LayoutParams) (k : Nat)
    (side : Side) : mu.searchCentre lp k sp.first side = nominalBed lp k sp.first side := by
  have none_ : mu.offsetBelow lp k sp.first side = ⟨0, 0⟩ := by
    unfold MarkUnit.offsetBelow
    rw [fixed]
    refine if_neg fun h => ?_
    unfold Span.has at h
    simp only [Bool.and_eq_true, decide_eq_true_eq] at h
    omega
  unfold MarkUnit.searchCentre
  rw [none_]
  show BedPos.mk (_ + 0) (_ + 0) = _
  rw [Int.add_zero, Int.add_zero]

/-! ### A search placed and taken -/

theorem corners_of_clipToBed {r c : Rect} (clipped : clipToBed r = some c) :
    (BedPos.mk c.x0 c.y0).onBed = true ∧ (BedPos.mk c.x1 c.y1).onBed = true := by
  unfold clipToBed at clipped
  dsimp only at clipped
  split at clipped
  · rename_i some_
    obtain rfl := Option.some.inj clipped
    unfold BedPos.onBed
    simp only [Bool.and_eq_true, decide_eq_true_eq]
    omega
  · exact nomatch clipped

theorem inReadying_iff {s : State} : s.inReadying = true ↔ s.cycle.state = .measuring ∧ s.cycle.phase = .readying := by
  unfold State.inReadying
  rw [Bool.and_eq_true, decide_eq_true_eq, decide_eq_true_eq]

/-- A mark with one attempt more, in flight (R56). -/
def MarkUnit.tried (mu : MarkUnit) (row : Nat) (side : Side) (m : Mark) (rect : Rect) : MarkUnit :=
  { mu.setMark row side { m with attempts := m.attempts + 1 } with
    flight := some ⟨row, side, m.attempts + 1, rect⟩ }

/-- The SEARCH of a mark placed in the empty queue. -/
def State.searching (s : State) (row : Nat) (side : Side) (m : Mark) (rect : Rect) : State :=
  (s.withMarks (s.marks.tried row side m rect)).queued [.search rect]

/-- The next UNREAD mark is searched where its square meets the bed (R56). -/
theorem searchFrom_places {s : State} {row : Nat} {side : Side} {m : Mark} {rect : Rect} (onReady : State → State)
    (n : Nat) (readying : s.inReadying = true) (free : s.cycle.stopPending = false)
    (next : s.marks.firstIn .unread = some (row, side)) (mark : s.marks.mark row side = some m)
    (clipped : clipToBed (searchSquare s.marks.searchSize m.attempts
      (s.marks.searchCentre s.nest.params s.cycle.pointer row side)) = some rect)
    (empty : s.motion.queue = []) :
    s.searchFrom onReady (n + 1) = s.searching row side m rect := by
  unfold State.searchFrom
  rw [if_neg (by rw [readying, free]; decide)]
  simp only [next, mark, clipped]
  rw [if_pos (by rw [empty]; decide)]
  exact place_empty (s.withMarks (s.marks.tried row side m rect)) empty

/-- A SEARCH at the head of the queue of an idle motion unit is taken at the close (R120). -/
theorem close_takes_search {t : State} {square rect : Rect} {rest : List Entry} (idle : t.motion.executing = false)
    (queue : t.motion.queue = .search rect :: rest) (shut : t.guardOpen = false) (homed : t.motion.homed = true)
    (clipped : clipToBed square = some rect) (quiet : t.link.formed = []) : t.close = t.travels := by
  obtain ⟨low, high⟩ := corners_of_clipToBed clipped
  have within : limitFailure t.motion.homed (.search rect) = none := by
    show (if !(BedPos.mk rect.x0 rect.y0).onBed then some (BedPos.mk rect.x0 rect.y0)
      else if !(BedPos.mk rect.x1 rect.y1).onBed then some ⟨rect.x1, rect.y1⟩
      else if t.motion.homed then none else some ⟨rect.x0, rect.y0⟩) = none
    rw [low, high, homed]
    rfl
  rw [close_takes idle queue nofun, takeEntry_passes shut within]
  exact flush_quiet (s := t.travels) quiet

theorem close_searching {s : State} {square rect : Rect} (row : Nat) (side : Side) (m : Mark)
    (idle : s.motion.executing = false) (shut : s.guardOpen = false) (homed : s.motion.homed = true)
    (clipped : clipToBed square = some rect) (quiet : s.link.formed = []) :
    (s.searching row side m rect).close = (s.searching row side m rect).travels :=
  close_takes_search (t := s.searching row side m rect) idle rfl shut homed clipped quiet

/-! ### Suspensions and holds -/

theorem cursorItem_rewind (s : State) : (s.mapWorklist Worklist.rewind).cursorItem = s.cursorItem := by
  show (match s.plan.worklist.map Worklist.rewind with | some w => w.cursorItem | none => none) = _
  unfold State.cursorItem
  cases s.plan.worklist <;> rfl

/-- SUSPENDED with a resume point, the motion unit `m` without the planner's entries (R105). -/
def State.suspendedWith (s : State) (m : MotionUnit) (resume : ResumePoint) : State :=
  { s with
    cycle := { s.cycle with
      state := .suspended, hold := none, taken := some ⟨s.cycle.reasons, s.cycle.halts, resume⟩
      reasons := ⟨false, false, false⟩, halts := 0, settleTimer := none }
    plan := { s.plan with worklist := s.plan.worklist.map Worklist.rewind }
    motion := { m with kiss := .raised, thru := .raised }
    bed := { s.bed with toolKiss := none, toolThru := none, beacon := false } }

theorem takeSuspension_eq {s : State} {m : MotionUnit} (left : s.motion.remove Entry.ofPlanner = m)
    (resume : ResumePoint) : s.takeSuspension resume = (s.suspendedWith m resume).emit
        (suspendedNotice ⟨s.cycle.reasons, s.cycle.halts, resume⟩ s.cycle.pointer s.cursorItem) := by
  have withdrawn : s.withdrawPlanner = (s.withMotion m).mapWorklist Worklist.rewind := by
    rw [← left]
    rfl
  rw [← cursorItem_rewind]
  unfold State.takeSuspension
  rw [withdrawn]
  dsimp only [State.raiseTools, State.clearReasons, State.setCycle, State.mapWorklist, State.withMotion, State.withBed,
    State.withPlan, State.withCycle]
  rfl

/-- HELD with a reason, the motion unit `m` without the planner's entries (R98). -/
def State.heldWith (s : State) (m : MotionUnit) (reason : HoldReason) : State :=
  { s with
    cycle := { s.cycle with
      state := .held, hold := some reason, taken := none, reasons := ⟨false, false, false⟩, halts := 0
      settleTimer := none }
    plan := { s.plan with worklist := s.plan.worklist.map Worklist.rewind }
    motion := { m with kiss := .raised, thru := .raised }
    bed := { s.bed with toolKiss := none, toolThru := none, beacon := true } }

theorem enterHeld_eq {s : State} {m : MotionUnit} (left : s.motion.remove Entry.ofPlanner = m) (reason : HoldReason)
    (detail : List Byte) : s.enterHeld reason detail = (s.heldWith m reason).emit
        (heldNotice reason s.cycle.pointer detail) := by
  have withdrawn : s.withdrawPlanner = (s.withMotion m).mapWorklist Worklist.rewind := by
    rw [← left]
    rfl
  unfold State.enterHeld
  rw [withdrawn]
  dsimp only [State.raiseTools, State.clearReasons, State.setCycle, State.mapWorklist, State.withMotion, State.withBed,
    State.withPlan, State.withCycle]
  rfl

/-! ### The settle timer's expiry -/

theorem exec_settleExpiry_stopped {s : State} (rest : s.atRest) (stopped : s.cycle.settleTimer = none) :
    exec .settleExpiry s = .next s := by
  show Host.Outcome.next (if s.cycle.settleTimer.isSome then s.begin.settleExpires.close else s.begin.close) = _
  rw [stopped, if_neg (by decide), begin_quiet rest.2, close_rest s rest]

theorem exec_settleExpiry_running {s : State} (rest : s.atRest) (running : s.cycle.settleTimer ≠ none) :
    exec .settleExpiry s = .next s.settleExpires.close := by
  show Host.Outcome.next (if s.cycle.settleTimer.isSome then s.begin.settleExpires.close else s.begin.close) = _
  rw [if_pos (Option.isSome_iff_ne_none.mpr running), begin_quiet rest.2]

/-- The settle timer gone. -/
def State.timerStopped (s : State) : State := s.withCycle { s.cycle with settleTimer := none }

theorem settleExpires_settling {s : State} (measuring : s.cycle.state = .measuring)
    (settling : s.cycle.phase = .settle) :
    s.settleExpires =
      if !s.vacOk then s.timerStopped.raiseFault .vacuumLost (.vacuum true) none
      else if s.suspendPending then s.timerStopped.takeSuspension .continue
      else s.timerStopped.toReadying.searchNow := if_pos ⟨measuring, settling⟩

/-- The settle timer runs only in MEASURING (R93). -/
theorem measuring_of_timer {s : State} (safe : s.cycleSafe = true) (running : s.cycle.settleTimer ≠ none) :
    s.cycle.state = .measuring := by
  by_contra elsewhere
  exact running (settleTimer_of_safe safe elsewhere)

/-- MEASURING in its readying phase with no hold, no record taken, no settle timer and BEACON off (R91). -/
def State.readied (s : State) : State :=
  { s with
    cycle := { s.cycle with
      state := .measuring, phase := .readying, hold := none, taken := none, settleTimer := none }
    bed := { s.bed with beacon := false } }

theorem toReadying_eq (s : State) : s.toReadying = s.readied := rfl

theorem rows_setMark {mu : MarkUnit} {row : Nat} {r : MarkRow} (exists_ : mu.rows[row]? = some r)
    (side : Side) (m : Mark) :
    (mu.setMark row side m).rows = mu.rows.set row (r.set side m) := by
  unfold MarkUnit.setMark
  rw [exists_]
  rfl

/-- Settles O46. -/
theorem settleExpiryActs : Obligations.SettleExpiryActs := by
  intro s rest safe empty
  refine ⟨exec_settleExpiry_stopped rest, fun running settling low => ?_, fun running settling high => ?_⟩
  all_goals
    have measuring := measuring_of_timer safe running
    have expires := settleExpires_settling measuring settling
    have exec_ := exec_settleExpiry_running rest running
  · rw [show s.vacOk = false from low, if_pos (by decide),
      raiseFault_unlatched (s := s.timerStopped) (fault_of_safe (s := s) safe (by rw [measuring]; decide))] at expires
    rw [expires, close_emptied (queue_faultEntry ..)] at exec_
    have faulted := cycle_faultEntry s.timerStopped .vacuumLost (.vacuum true) none
    refine ⟨_, s.timerStopped.faultRecord .vacuumLost (.vacuum true), exec_, ?_, ?_, rfl, rfl, measuring, ?_⟩
    all_goals rw [State.cycle_flush, faulted]
  · rw [show s.vacOk = true from high, if_neg (by decide)] at expires
    refine ⟨fun pending => ?_, fun sp row m rect free going homed shut fixed some_ exists_ left unread clipped => ?_⟩
    · have still : (s.timerStopped.suspendedWith s.motion .continue).atRest := ⟨rest.1, rest.2⟩
      rw [if_pos pending, takeSuspension_eq (s := s.timerStopped) (remove_empty empty _)] at expires
      rw [expires, close_emit still] at exec_
      exact ⟨_, exec_, rfl, rfl, rfl, rfl, empty, rfl, rfl⟩
    · have mark : s.marks.mark sp.first .left = some m := left ▸ mark_of_row exists_ .left
      have places :=
        searchFrom_places (s := s.readied) (rect := rect) (row := sp.first) (side := .left) State.issueNow 2
        (inReadying_iff.mpr ⟨rfl, rfl⟩) going (firstIn_first fixed some_ mark unread) mark
        ((congrArg clipToBed (congrArg _ (searchCentre_first fixed ..))).trans clipped) empty
      have searches : s.timerStopped.toReadying.searchNow = _ := places
      rw [if_neg (by rw [free]; decide), searches] at expires
      have idle := not_executing_of_empty rest.1 empty
      rw [expires, close_searching (s := s.readied) _ _ _ idle shut homed clipped rest.2] at exec_
      refine ⟨_, exec_, rfl, rfl, rfl, rfl, rfl, rfl, ?_, rfl, rfl⟩
      refine (rows_setMark exists_ .left _).trans ?_
      rw [← left]
      rfl

end Sys2Proof.Machine

/-! The reports of the drive port beside the completions (R123, R125, R126, R128), and the filtered lines (R132,
R134). -/

namespace Sys2Proof.Machine

/-! ### A fault entry at the close of a command -/

/-- The state after a command that ends in a fault entry (R145 to R147). -/
def State.faulted (s : State) (kind : FaultKind) (detail : FaultDetail) (taking : Option Entry) : State :=
  (s.faultEntry kind detail taking).close

section
variable (s : State) (k : FaultKind) (d : FaultDetail) (e : Option Entry)

theorem faulted_flush : s.faulted k d e = (s.faultEntry k d e).flush := close_emptied (queue_faultEntry ..)

theorem cycle_faulted : (s.faulted k d e).cycle = (s.faultEntry k d e).cycle := by rw [faulted_flush, State.cycle_flush]

theorem motion_faulted : (s.faulted k d e).motion = (s.faultEntry k d e).motion := by
  rw [faulted_flush, State.motion_flush]

theorem bed_faulted : (s.faulted k d e).bed = s.bed.safe := by rw [faulted_flush, State.bed_flush, bed_faultEntry]

theorem store_faulted : (s.faulted k d e).store = s.store := by rw [faulted_flush, State.store_flush, store_faultEntry]

theorem nest_faulted : (s.faulted k d e).nest = s.nest := by rw [faulted_flush, State.nest_flush, nest_faultEntry]

theorem halted_faulted : (s.faulted k d e).cycle.state = .halted := by rw [cycle_faulted, cycle_faultEntry]

theorem record_faulted : (s.faulted k d e).cycle.fault = some (s.faultRecord k d) := by
  rw [cycle_faulted, cycle_faultEntry]

theorem queue_faulted : (s.faulted k d e).motion.queue = [] := by rw [motion_faulted, queue_faultEntry]

theorem executing_faulted : (s.faulted k d e).motion.executing = false := by
  rw [motion_faulted, motion_faultEntry]
  rfl

theorem homed_faulted : (s.faulted k d e).motion.homed =
    if k = .estop ∨ k = .homeFail then false else s.motion.homed := by
  rw [motion_faulted, motion_faultEntry]

theorem head_faulted : (s.faulted k d e).motion.head = if k = .estop ∨ k = .homeFail then none else s.motion.head := by
  rw [motion_faulted, motion_faultEntry]

theorem kiss_faulted : (s.faulted k d e).motion.kiss = .raised := by
  rw [motion_faulted, motion_faultEntry]
  rfl

theorem thru_faulted : (s.faulted k d e).motion.thru = .raised := by
  rw [motion_faulted, motion_faultEntry]
  rfl

theorem link_faulted (quiet : s.link.formed = []) :
    (s.faulted k d e).link = s.link.queueNotice (faultNotice (s.faultRecord k d)) := by
  rw [faulted_flush]
  unfold State.flush
  rw [link_faultEntry]
  show (s.link.formed ++ [_]).foldl LinkPort.queueNotice { s.link with formed := [] } = _
  rw [quiet]
  show LinkPort.queueNotice { s.link with formed := [] } _ = _
  rw [← quiet]

end

/-- No fault is latched while the motion queue holds an entry (R130, R146). -/
theorem fault_of_moving {s : State} {e : Entry} {rest : List Entry} (safe : s.cycleSafe = true)
    (queue : s.motion.queue = e :: rest) : s.cycle.fault = none := by
  obtain ⟨_, halts, _⟩ := safe_parts safe
  unfold State.haltSafe at halts
  rw [queue] at halts
  cases latched : s.cycle.fault with
  | none => rfl
  | some r =>
    rw [latched] at halts
    simp at halts

/-! ### The encoder, the axes and the full travel of an axis -/

theorem executingEntry_idle {s : State} (settled : s.motionSettled = true) (empty : s.motion.queue = []) :
    s.motion.executingEntry = none := if_neg (by rw [not_executing_of_empty settled empty]; decide)

theorem feedExecuting_iff {s : State} (settled : s.motionSettled = true) :
    s.feedExecuting = true ↔ ∃ d rest, s.motion.queue = .feed d :: rest := by
  unfold State.feedExecuting
  cases queue : s.motion.queue with
  | nil =>
    rw [executingEntry_idle settled queue]
    exact ⟨fun h => (nomatch h), fun ⟨_, _, h⟩ => (nomatch h)⟩
  | cons e rest =>
    rw [executingEntry_of_queue settled queue]
    cases e with
    | feed d => exact ⟨fun _ => ⟨d, rest, rfl⟩, fun _ => rfl⟩
    | travel | cut | search | home => exact ⟨fun h => (nomatch h), fun ⟨_, _, h⟩ => (nomatch h)⟩

theorem homeExecuting_iff {s : State} (settled : s.motionSettled = true) :
    s.homeExecuting = true ↔ ∃ rest, s.motion.queue = .home :: rest := by
  unfold State.homeExecuting
  cases queue : s.motion.queue with
  | nil =>
    rw [executingEntry_idle settled queue]
    exact ⟨fun h => (nomatch h), fun ⟨_, h⟩ => (nomatch h)⟩
  | cons e rest =>
    rw [executingEntry_of_queue settled queue]
    cases e with
    | home => exact ⟨fun _ => ⟨rest, rfl⟩, fun _ => rfl⟩
    | travel | cut | search | feed => exact ⟨fun h => (nomatch h), fun ⟨_, h⟩ => (nomatch h)⟩

section
variable {s : State} (rest : s.atRest)
include rest

theorem exec_encoderStep (forward : Bool) : exec (.encoderStep forward) s = .next (s.encoderSteps forward).close :=
  congrArg (fun u => Host.Outcome.next (State.close (State.encoderSteps forward u))) (begin_quiet rest.2)

theorem exec_axisPositionReport (x y : Int) : exec (.axisPositionReport x y) s = .next (s.axesReport x y).close :=
  congrArg (fun u => Host.Outcome.next (State.close (State.axesReport x y u))) (begin_quiet rest.2)

theorem exec_homeFullTravel (axis : Axis) : exec (.homeFullTravel axis) s = .next (s.fullTravel axis).close :=
  congrArg (fun u => Host.Outcome.next (State.close (State.fullTravel axis u))) (begin_quiet rest.2)

end

theorem axesReport_idle {s : State} (none_ : s.motion.executingEntry = none) (x y : Int) : s.axesReport x y = s := by
  unfold State.axesReport
  rw [none_]

theorem axesReport_feed {s : State} {d : Nat} (feeding : s.motion.executingEntry = some (.feed d)) (x y : Int) :
    s.axesReport x y = s := by
  unfold State.axesReport
  rw [feeding]

theorem axesReport_moving {s : State} {e : Entry} (moving : s.motion.executingEntry = some e) (kind : e.kind ≠ .feed)
    (x y : Int) :
    s.axesReport x y = if s.motion.homed then s.withMotion { s.motion with head := some ⟨x, y⟩ } else s := by
  unfold State.axesReport
  rw [moving]
  cases e with
  | feed d => exact absurd rfl kind
  | travel | cut | search | home => rfl

/-- HOME_FULL_TRAVEL of an axis while a HOME executes (R126). -/
theorem fullTravel_homing {s : State} {h : Homing} (executing : s.homeExecuting = true)
    (homing : s.motion.homing = some h) (axis : Axis) :
    s.fullTravel axis = if h.home axis then s else s.raiseFault .homeFail (.axis axis) none := by
  unfold State.fullTravel
  rw [if_pos executing, homing]

/-- Settles O51. -/
theorem driveReportsFollowed : Obligations.DriveReportsFollowed := by
  intro s rest safe
  have ⟨settled, _⟩ := rest
  refine ⟨fun forward => ⟨fun d more queue => ?_, fun away => ?_⟩, fun x y => ⟨fun e more queue kind homed => ?_,
    fun e more queue still => ?_, fun empty => ?_⟩, fun axis h more queue homing => ⟨fun home => ?_, fun driven => ?_⟩,
    fun axis away => ?_⟩
  · rw [exec_encoderStep rest, show s.encoderSteps forward = _ from
      if_pos ((feedExecuting_iff settled).mpr ⟨d, more, queue⟩)]
    exact congrArg Host.Outcome.next (close_rest (s.withMotion _) rest)
  · rw [exec_encoderStep rest, show s.encoderSteps forward = s from
      if_neg ((feedExecuting_iff settled).not.mpr fun ⟨d, more, queue⟩ => away d more queue), close_rest s rest]
  · rw [exec_axisPositionReport rest, axesReport_moving (executingEntry_of_queue settled queue) kind, if_pos homed]
    exact congrArg Host.Outcome.next (close_rest (s.withMotion _) rest)
  · have executing := executingEntry_of_queue settled queue
    have same : s.axesReport x y = s := by
      by_cases kind : e.kind = .feed
      · cases e with
        | feed d => exact axesReport_feed executing x y
        | travel | cut | search | home => exact nomatch kind
      · rw [axesReport_moving executing kind, still.resolve_left kind]
        rfl
    rw [exec_axisPositionReport rest, same, close_rest s rest]
  · rw [exec_axisPositionReport rest, axesReport_idle (executingEntry_idle settled empty), close_rest s rest]
  · rw [exec_homeFullTravel rest, fullTravel_homing ((homeExecuting_iff settled).mpr ⟨more, queue⟩) homing, if_pos home,
      close_rest s rest]
  · have fails : exec (.homeFullTravel axis) s = .next (s.faulted .homeFail (.axis axis) none) := by
      rw [exec_homeFullTravel rest, fullTravel_homing ((homeExecuting_iff settled).mpr ⟨more, queue⟩) homing,
        if_neg (by rw [driven]; decide), raiseFault_unlatched (fault_of_moving safe queue)]
      rfl
    exact ⟨_, _, fails, halted_faulted .., record_faulted .., rfl, rfl, rfl, queue_faulted .., executing_faulted ..,
      homed_faulted .., head_faulted ..⟩
  · rw [exec_homeFullTravel rest, show s.fullTravel axis = s from
      if_neg ((homeExecuting_iff settled).not.mpr fun ⟨more, queue⟩ => away more queue), close_rest s rest]

/-! ### Filtered lines -/

theorem exec_lineWireChange {s : State} (rest : s.atRest) (i : Fin 8) (level : Bool) :
    exec (.lineWireChange i level) s = .next (s.wireChange i level).close :=
  congrArg (fun u => Host.Outcome.next (State.close (State.wireChange i level u))) (begin_quiet rest.2)

section
variable {s : State} {i : Fin 8} {level : Bool} (moved : (s.bed.lines.get i).wire ≠ level)
include moved

theorem wireChange_moved : s.wireChange i level =
    (s.setLine i { s.bed.lines.get i with wire := level }).filterLine i := if_neg moved

/-- A wire back at the taken level stops the filter's timer (R132). -/
theorem wireChange_back (same : level = (s.bed.lines.get i).taken) :
    s.wireChange i level = s.setLine i { s.bed.lines.get i with wire := level, timer := none } := by
  rw [wireChange_moved moved]
  unfold State.filterLine
  simp only [line_setLine]
  rw [if_pos same, setLine_setLine]

variable (away : level ≠ (s.bed.lines.get i).taken)
include away

/-- A filtered line away from its taken level starts the timer (R132). -/
theorem wireChange_starts (notEstop : i ≠ 0) (filters : (s.bed.lines.get i).filter ≠ .none) :
    s.wireChange i level = s.setLine i { s.bed.lines.get i with
      wire := level, timer := some (s.bed.lines.get i).filter.time } := by
  have later : ¬(i.val = 0 ∨ (s.bed.lines.get i).filter = .none) :=
    fun h => h.elim (fun h => notEstop (Fin.ext h)) filters
  rw [wireChange_moved moved]
  unfold State.filterLine
  simp only [line_setLine]
  rw [if_neg away, if_neg later, setLine_setLine]

/-- An unfiltered line away from its taken level takes the level at once (R132). -/
theorem wireChange_takes (bare : i.val = 0 ∨ (s.bed.lines.get i).filter = .none) :
    s.wireChange i level = (s.setLine i { s.bed.lines.get i with wire := level }).takeLevel i := by
  rw [wireChange_moved moved]
  unfold State.filterLine
  simp only [line_setLine]
  rw [if_neg away, if_pos bare]

end

/-- KEY takes its wire's level: it reports an enabled change and acts on no unit (R134, R139). -/
theorem close_takeLevel_key {s : State} (rest : s.atRest)
    (moved : (s.bed.lines.get 4).wire ≠ (s.bed.lines.get 4).taken) : (s.takeLevel 4).close =
      if (if (s.bed.lines.get 4).wire then (s.bed.lines.get 4).riseEn else (s.bed.lines.get 4).fallEn) = true then
        State.queueNotice ⟨0x69, 0, [4, if (s.bed.lines.get 4).wire then 0 else 1,
          if (s.bed.lines.get 4).wire then 1 else 0, u8 (s.setLine 4 (s.bed.lines.get 4).take).levels], none⟩
          (s.setLine 4 (s.bed.lines.get 4).take)
      else s.setLine 4 (s.bed.lines.get 4).take := by
  have still : (s.setLine 4 (s.bed.lines.get 4).take).atRest := rest
  rw [takeLevel_change moved, lineActs_key, inputNotice_key, apply_ite State.close, close_emit still,
    close_rest _ still]

/-- Settles O53. -/
theorem filteredLineChanges : Obligations.FilteredLineChanges := by
  refine ⟨fun s i level rest => ?_, fun s level rest => ?_⟩
  · intro l withLine
    have line (j : Fin 8) (m : Line) : (s.setLine j m).close = withLine j m := close_rest (s.setLine j m) rest
    have starts (away : level ≠ l.taken) (moved : l.wire ≠ level) (notEstop : i ≠ 0) {f : Filter}
        (filter : l.filter = f) (filters : f ≠ .none) : exec (.lineWireChange i level) s =
          .next (withLine i { l with wire := level, timer := some f.time }) := by
      rw [exec_lineWireChange rest, wireChange_starts moved away notEstop (fun h => filters (filter.symm.trans h)),
        line]
      exact congrArg (fun n => Host.Outcome.next (withLine i { l with wire := level, timer := some (Filter.time n) }))
        filter
    refine ⟨fun same => ?_, fun moved back => ?_, fun moved away notEstop => ⟨fun two => ?_, fun eight => ?_,
      fun long => ?_⟩, fun stopped => ?_, fun running moved => ?_⟩
    · rw [exec_lineWireChange rest, show s.wireChange i level = s from if_pos same, close_rest s rest]
    · rw [exec_lineWireChange rest, wireChange_back moved back, line]
    · exact starts away moved notEstop two (by decide)
    · exact starts away moved notEstop eight (by decide)
    · exact starts away moved notEstop long (by decide)
    · rw [exec_filterExpiry rest, show s.filterExpires i = s from
        if_neg (by rw [show (s.bed.lines.get i).timer = none from stopped]; decide), close_rest s rest]
    · intro enabled t
      rw [exec_filterExpiry rest, filterExpires_running running, close_takeLevel_key rest moved]
      rfl
  · intro k enabled t bare moved away
    have wired : (s.setLine 4 { k with wire := level }).bed.lines.get 4 = { k with wire := level } := line_setLine ..
    rw [exec_lineWireChange rest, wireChange_takes moved away (.inr bare), close_takeLevel_key (s := s.setLine 4 _) rest
      (by rw [wired]; exact away), wired, setLine_setLine]
    rfl

end Sys2Proof.Machine

/-! What the lines do to the other units: ESTOP, GUARD, VAC_OK, MEDIA_END and PEDAL (R131 to R140), and the entry
taken behind a completion (R120, R123). -/

namespace Sys2Proof.Machine

/-! ### A line's change taken and reported -/

theorem take_fall {l : Line} (wire : l.wire = false) (silent : l.fallEn = false) : l.take = l.at false := by
  cases l
  subst wire silent
  simp [Line.take, Line.at]

/-- A line that takes its wire's fall without a change enabled, and does what the fall does (R132). -/
theorem takeLevel_fall {s : State} {i : Fin 8} (wire : (s.bed.lines.get i).wire = false)
    (high : (s.bed.lines.get i).taken = true) (silent : (s.bed.lines.get i).fallEn = false) :
    s.takeLevel i = (s.setLine i ((s.bed.lines.get i).at false)).lineActs i false := by
  have off : (if false = true then (s.bed.lines.get i).riseEn else (s.bed.lines.get i).fallEn) = false := silent
  rw [takeLevel_change (by rw [wire, high]; decide), take_fall wire silent, wire, off]
  rfl

/-- An unfiltered line that takes a rise of its wire without a change enabled (R132). -/
theorem wireChange_rise {s : State} {i : Fin 8} (bare : i.val = 0 ∨ (s.bed.lines.get i).filter = .none)
    (wire : (s.bed.lines.get i).wire = false) (low : (s.bed.lines.get i).taken = false)
    (silent : (s.bed.lines.get i).riseEn = false) : s.wireChange i true =
      (s.setLine i { s.bed.lines.get i with wire := true, taken := true, timer := none }).lineActs i true := by
  have wired := line_setLine s i { s.bed.lines.get i with wire := true }
  rw [wireChange_takes (by rw [wire]; decide) (by rw [low]; decide) bare,
    takeLevel_rise (by rw [wired]) (by rw [wired]; exact low) (by rw [wired]; exact silent), wired, setLine_setLine]
  rfl

/-- An unfiltered line that takes a fall of its wire without a change enabled (R132). -/
theorem wireChange_fall {s : State} {i : Fin 8} (bare : i.val = 0 ∨ (s.bed.lines.get i).filter = .none)
    (wire : (s.bed.lines.get i).wire = true) (high : (s.bed.lines.get i).taken = true)
    (silent : (s.bed.lines.get i).fallEn = false) : s.wireChange i false =
      (s.setLine i { s.bed.lines.get i with wire := false, taken := false, timer := none }).lineActs i false := by
  have wired := line_setLine s i { s.bed.lines.get i with wire := false }
  rw [wireChange_takes (by rw [wire]; decide) (by rw [high]; decide) bare,
    takeLevel_fall (by rw [wired]) (by rw [wired]; exact high) (by rw [wired]; exact silent), wired, setLine_setLine]
  rfl

/-- The line after a rise that it reports (R134). -/
def Line.risen (l : Line) : Line := { l with wire := true, taken := true, timer := none, riseChange := true }

theorem take_risen {l : Line} (wire : l.wire = true) (reports : l.riseEn = true) : l.take = l.risen := by
  cases l
  subst wire reports
  simp [Line.take, Line.risen]

/-- A line risen, its INPUT notice formed. -/
def State.reported (s : State) (i : Fin 8) : State :=
  (s.setLine i (s.bed.lines.get i).risen).emit (inputNotice i true (s.setLine i (s.bed.lines.get i).risen).levels)

theorem takeLevel_reported {s : State} {i : Fin 8} (wire : (s.bed.lines.get i).wire = true)
    (low : (s.bed.lines.get i).taken = false) (reports : (s.bed.lines.get i).riseEn = true) :
    s.takeLevel i = (s.reported i).lineActs i true := by
  rw [takeLevel_change (by rw [wire, low]; decide), wire, if_pos rfl, if_pos reports, take_risen wire reports]
  rfl

theorem wireChange_reported {s : State} {i : Fin 8} (bare : i.val = 0 ∨ (s.bed.lines.get i).filter = .none)
    (wire : (s.bed.lines.get i).wire = false) (low : (s.bed.lines.get i).taken = false)
    (reports : (s.bed.lines.get i).riseEn = true) : s.wireChange i true = (s.reported i).lineActs i true := by
  have wired := line_setLine s i { s.bed.lines.get i with wire := true }
  rw [wireChange_takes (by rw [wire]; decide) (by rw [low]; decide) bare,
    takeLevel_reported (by rw [wired]) (by rw [wired]; exact low) (by rw [wired]; exact reports)]
  unfold State.reported
  rw [wired, setLine_setLine]
  rfl

/-! ### What a rise does -/

section
variable {s : State}

theorem lineActs_estop (unlatched : s.cycle.fault = none) :
    s.lineActs 0 true = s.faultEntry .estop .none none := raiseFault_unlatched unlatched ..

theorem lineActs_estop_latched {r : FaultRecord} (latched : s.cycle.fault = some r) :
    s.lineActs 0 true = s.followOnFault .estop r := by
  show s.raiseFault .estop .none none = _
  unfold State.raiseFault
  rw [latched]

theorem lineActs_guard {e : Entry} (unlatched : s.cycle.fault = none) (executing : s.motion.executingEntry = some e) :
    s.lineActs 1 true = s.faultEntry .guard (.guard e.kind) none := by
  show (match s.motion.executingEntry with
    | some e => s.raiseFault .guard (.guard e.kind) none
    | none => s) = _
  rw [executing]
  exact raiseFault_unlatched unlatched ..

theorem lineActs_guard_idle (idle : s.motion.executingEntry = none) : s.lineActs 1 true = s := by
  show (match s.motion.executingEntry with
    | some e => s.raiseFault .guard (.guard e.kind) none
    | none => s) = _
  rw [idle]

theorem lineActs_media {d : Nat} (unlatched : s.cycle.fault = none)
    (executing : s.motion.executingEntry = some (.feed d)) :
    s.lineActs 3 true = s.faultEntry .mediaEnd (.mediaEnd true d s.motion.encoder) none := by
  show (match s.motion.executingEntry with
    | some (.feed d) => s.raiseFault .mediaEnd (.mediaEnd true d s.motion.encoder) none
    | _ => s) = _
  rw [executing]
  exact raiseFault_unlatched unlatched ..

theorem lineActs_media_idle (idle : s.motion.executingEntry = none) : s.lineActs 3 true = s := by
  show (match s.motion.executingEntry with
    | some (.feed d) => s.raiseFault .mediaEnd (.mediaEnd true d s.motion.encoder) none
    | _ => s) = _
  rw [idle]

/-- The states in which a loss of vacuum is a fault (R138). -/
def CycleState.needsVacuum (st : CycleState) : Prop := st = .measuring ∨ st = .cutting ∨ st = .suspended ∨ st = .testcut

theorem lineActs_vacuum (unlatched : s.cycle.fault = none) (needs : s.cycle.state.needsVacuum) :
    s.lineActs 2 false = s.faultEntry .vacuumLost (.vacuum false) none :=
  (if_pos needs).trans (raiseFault_unlatched unlatched ..)

theorem lineActs_vacuum_spare (spare : ¬s.cycle.state.needsVacuum) : s.lineActs 2 false = s := if_neg spare

end

/-- A line that takes its wire's level without a change enabled, and does what the change does (R132). -/
theorem takeLevel_silent {s : State} {i : Fin 8} (moved : (s.bed.lines.get i).wire ≠ (s.bed.lines.get i).taken)
    (rise : (s.bed.lines.get i).riseEn = false) (fall : (s.bed.lines.get i).fallEn = false) :
    s.takeLevel i = (s.setLine i ((s.bed.lines.get i).at (s.bed.lines.get i).wire)).lineActs i
      (s.bed.lines.get i).wire := by
  cases wire : (s.bed.lines.get i).wire with
  | true => exact takeLevel_rise wire (by rw [wire] at moved; exact (Bool.eq_false_iff.mpr (Ne.symm moved))) rise
  | false => exact takeLevel_fall wire (by rw [wire] at moved; exact Bool.not_eq_false _ ▸ (Ne.symm moved)) fall

/-! ### Units whose values do not depend on the link port -/

/-- Two states that differ in their link ports alone. -/
def State.unitsOf (s : State) :
    List Instr × PanelStore × NestUnit × MarkUnit × Planner × CycleControl × MotionUnit × BedIO :=
  (s.pending, s.store, s.nest, s.marks, s.plan, s.cycle, s.motion, s.bed)

theorem withLink_of_units {s t : State} (same : t.unitsOf = s.unitsOf) : t = s.withLink t.link := by
  cases s
  cases t
  cases same
  rfl

theorem units_faultEntry (s : State) (l : LinkPort) (k : FaultKind) (d : FaultDetail) (e : Option Entry) :
    ((s.withLink l).faultEntry k d e).unitsOf = (s.faultEntry k d e).unitsOf := by
  have owed : (s.withLink l).owedAtFault e = s.owedAtFault e := by
    unfold State.owedAtFault State.writeOwed
    show (match s.stoppedFeed e with | none => _ | some (_, _) => _ : State).cycle = _
    cases s.stoppedFeed e <;> rfl
  unfold State.unitsOf
  simp only [pending_faultEntry, store_faultEntry, nest_faultEntry, marks_faultEntry, plan_faultEntry, cycle_faultEntry,
    motion_faultEntry, bed_faultEntry, owed]
  rfl

theorem units_raiseFault (s : State) (l : LinkPort) (k : FaultKind) (d : FaultDetail) (e : Option Entry) :
    ((s.withLink l).raiseFault k d e).unitsOf = (s.raiseFault k d e).unitsOf := by
  cases latched : s.cycle.fault with
  | none =>
    rw [raiseFault_unlatched latched, raiseFault_unlatched (s := s.withLink l) latched]
    exact units_faultEntry s l k d e
  | some r =>
    unfold State.raiseFault
    rw [latched, show (s.withLink l).cycle.fault = some r from latched]
    show ((s.withLink l).followOnFault k r).unitsOf = (s.followOnFault k r).unitsOf
    unfold State.followOnFault
    extract_lets a b c d'
    by_cases estop : k = .estop
    · rw [if_pos estop, if_pos estop]
      rfl
    · rw [if_neg estop, if_neg estop]
      rfl

theorem units_restTools (s : State) (l : LinkPort) : (s.withLink l).restTools.unitsOf = s.restTools.unitsOf := by
  unfold State.restTools
  show (if s.motion.queue.isEmpty then _ else _ : State).unitsOf = _
  split <;> rfl

theorem units_completeHome (s : State) (l : LinkPort) :
    (s.withLink l).completeHome.unitsOf = s.completeHome.unitsOf := by
  let ended := s.endEntry.withMotion { s.endEntry.motion with head := some ⟨0, 0⟩, homed := true }
  have ends : s.completeHome = (if s.cycle.state = .homing then ended.setCycle .idle else ended).restTools := rfl
  have linked : (s.withLink l).completeHome =
      (if s.cycle.state = .homing then (ended.setCycle .idle).withLink l else ended.withLink l).restTools := rfl
  rw [ends, linked]
  split
  · exact units_restTools (ended.setCycle .idle) l
  · exact units_restTools ended l

theorem units_settleHome (s : State) (l : LinkPort) : (s.withLink l).settleHome.unitsOf = s.settleHome.unitsOf := by
  by_cases both : s.motion.homing = some ⟨true, true⟩
  · rw [settleHome_both both, settleHome_both (s := s.withLink l) both]
    exact units_completeHome s l
  · have stays {u : State} (h : u.motion.homing ≠ some ⟨true, true⟩) : u.settleHome = u := by
      unfold State.settleHome
      split
      · rename_i done
        exact absurd done h
      · rfl
    rw [stays both, stays (u := s.withLink l) both]
    rfl

/-- The take of an entry does the same to the units whatever the link port holds (R120). -/
theorem units_takeEntry (s : State) (l : LinkPort) (e : Entry) :
    ((s.withLink l).takeEntry e).unitsOf = (s.takeEntry e).unitsOf := by
  have open_ : (s.withLink l).guardOpen = s.guardOpen := rfl
  have media : (s.withLink l).mediaEnd = s.mediaEnd := rfl
  cases guard : s.guardOpen with
  | true =>
    unfold State.takeEntry
    rw [open_, guard, if_pos rfl, if_pos rfl]
    exact units_raiseFault ..
  | false =>
    cases limit : limitFailure s.motion.homed e with
    | some target =>
      unfold State.takeEntry
      rw [open_, guard, if_neg (by decide), if_neg (by decide), limit,
        show limitFailure (s.withLink l).motion.homed e = some target from limit]
      exact units_raiseFault ..
    | none =>
      rw [takeEntry_passes guard limit, takeEntry_passes (t := s.withLink l) guard limit]
      cases e with
      | feed d =>
        dsimp only
        rw [media]
        split
        · exact units_raiseFault ..
        · rfl
      | home => exact units_settleHome s.startHome l
      | travel | search => rfl
      | cut tool => cases tool <;> rfl

theorem units_takeEntries (n : Nat) (s : State) (l : LinkPort) :
    ((s.withLink l).takeEntries n).unitsOf = (s.takeEntries n).unitsOf := by
  induction n generalizing s l with
  | zero => rfl
  | succ n ih =>
    unfold State.takeEntries
    show (if s.motion.executing then s.withLink l else match s.motion.queue with
      | [] => s.withLink l
      | e :: _ => if e = .home then ((s.withLink l).takeEntry e).takeEntries n else (s.withLink l).takeEntry e :
        State).unitsOf = _
    cases s.motion.executing with
    | true => rfl
    | false =>
      cases s.motion.queue with
      | nil => rfl
      | cons e rest =>
        have taken := units_takeEntry s l e
        by_cases home : e = .home
        · simp only [home, Bool.false_eq_true, if_false, if_true]
          rw [home] at taken
          rw [withLink_of_units taken]
          exact ih (s.takeEntry .home) _
        · simp only [home, Bool.false_eq_true, if_false]
          exact taken

/-- What the close of a command does to the units does not depend on the link port. -/
theorem units_close (s : State) (l : LinkPort) : (s.withLink l).close.unitsOf = s.close.unitsOf :=
  units_takeEntries s.motion.queue.length s l

/-! ### An entry taken behind a completion -/

/-- An entry whose take is a fault ends the command in that fault (R120, R137). -/
theorem close_takes_fault {t : State} {e : Entry} {rest : List Entry} {k : FaultKind} {d : FaultDetail}
    (idle : t.motion.executing = false) (queue : t.motion.queue = e :: rest)
    (faults : t.takeEntry e = t.faultEntry k d (some e)) : t.close = t.faulted k d (some e) := by
  by_cases home : e = .home
  · have emptied : (t.faultEntry k d (some e)).takeEntries rest.length = t.faultEntry k d (some e) := by
      refine takeEntries_settled ?_ _
      unfold State.motionSettled
      rw [queue_faultEntry, motion_faultEntry]
      rfl
    rw [faulted_flush]
    unfold State.close
    rw [queue, List.length_cons]
    unfold State.takeEntries
    rw [idle, queue, if_neg (by decide)]
    refine congrArg State.flush ((if_pos home).trans ?_)
    rw [faults, emptied]
  · rw [close_takes idle queue home, faults, faulted_flush]

section
variable {t : State} {e : Entry} (unlatched : t.cycle.fault = none)
include unlatched

theorem takeEntry_guard (open_ : t.guardOpen = true) : t.takeEntry e = t.faultEntry .guard (.guard e.kind) (some e) :=
  (if_pos open_).trans (raiseFault_unlatched unlatched ..)

theorem takeEntry_limit {target : BedPos} (shut : t.guardOpen = false)
    (limit : limitFailure t.motion.homed e = some target) :
    t.takeEntry e = t.faultEntry .motionLimit (.limit e.kind target (!t.motion.homed)) (some e) := by
  unfold State.takeEntry
  rw [shut, if_neg (by decide), limit]
  exact raiseFault_unlatched unlatched ..

end

theorem onBed_iff {q : BedPos} : q.onBed = true ↔ 0 ≤ q.x ∧ q.x ≤ 165000 ∧ 0 ≤ q.y ∧ q.y ≤ 260000 := by
  unfold BedPos.onBed
  simp only [Bool.and_eq_true, decide_eq_true_eq, and_assoc]
  exact Iff.rfl

/-- A cycle TRAVEL completes with an entry behind it: the head is at its target, and the next entry is taken (R123). -/
theorem exec_travel_completes {s : State} {p : BedPos} {e : Entry} {rest : List Entry} (atRest : s.atRest)
    (queue : s.motion.queue = .travel .cycle p :: e :: rest) :
    exec .moveCompletion s = .next (s.arrived p).close ∧ (s.arrived p).motion.queue = e :: rest ∧
      (s.arrived p).motion.executing = false := by
  have left : (s.arrived p).motion.queue = e :: rest := by
    show s.motion.queue.tail = _
    rw [queue]
    rfl
  refine ⟨?_, left, rfl⟩
  rw [exec_moveCompletion atRest]
  unfold State.moveCompletes
  rw [executingEntry_of_queue atRest.1 queue]
  refine congrArg (fun u => Host.Outcome.next (State.close u)) ?_
  show (s.arrived p).restTools = _
  exact if_neg (by rw [left]; exact Bool.false_ne_true)

/-- A fault behind a notice: both are queued, in order (R157). -/
theorem link_faulted_reported {s : State} (quiet : s.link.formed = []) (n : OutRecord) (k : FaultKind)
    (d : FaultDetail) (e : Option Entry) : ((s.emit n).faulted k d e).link =
      (s.link.queueNotice n).queueNotice (faultNotice ((s.emit n).faultRecord k d)) := by
  rw [faulted_flush]
  unfold State.flush
  rw [link_faultEntry]
  show ((s.link.formed ++ [n]) ++ [_]).foldl LinkPort.queueNotice { s.link with formed := [] } = _
  rw [quiet]
  show LinkPort.queueNotice (LinkPort.queueNotice { s.link with formed := [] } n) _ = _
  rw [← quiet]

/-! ### PEDAL -/

/-- A resumption that the pedal makes as RESUME does (R107, R110). -/
def State.pedalWaits (s : State) : Prop :=
  s.cycle.state = .suspended ∨ (s.cycle.state = .held ∧ s.cycle.hold = some .recover)

theorem heldFor_recover {s : State} (held : s.cycle.state = .held) (recover : s.cycle.hold = some .recover) :
    s.heldFor .recover = true := by
  unfold State.heldFor
  rw [held, recover]
  rfl

section
variable {s : State}

theorem mayResume_iff : s.mayResume = true ↔ s.guardOpen = false ∧ s.motion.homed = true := by
  unfold State.mayResume
  rw [Bool.and_eq_true, Bool.not_eq_true']

theorem pedal_idle (idle : ¬s.pedalWaits ∨ s.guardOpen = true ∨ s.motion.homed = false) : s.pedal = s := by
  have passes : ¬(s.pedalWaits ∧ s.mayResume = true) := by
    rw [mayResume_iff]
    rintro ⟨waits, shut, homed⟩
    rcases idle with h | h | h
    · exact h waits
    · exact nomatch shut.symm.trans h
    · exact nomatch homed.symm.trans h
  unfold State.pedal
  rw [if_neg, if_neg]
  · rw [Bool.and_eq_true, heldFor_iff]
    exact fun ⟨held, may⟩ => passes ⟨.inr held, may⟩
  · rw [Bool.and_eq_true, decide_eq_true_eq]
    exact fun ⟨suspended, may⟩ => passes ⟨.inl suspended, may⟩

/-- A resumption that passes the guard and home checks (R107). -/
theorem actResume_passes (waiting : s.cycle.state = .suspended ∨ s.cycle.state = .held) (shut : s.guardOpen = false)
    (homed : s.motion.homed = true) : actResume s =
      if s.cycle.state = .suspended then s.resumeSuspended.done else s.resumeHeld.done := by
  have stands : ¬(s.cycle.state = .measuring ∨ s.cycle.state = .cutting ∨ s.cycle.state = .feeding) := by
    rcases waiting with h | h <;> rw [h] <;> decide
  unfold actResume
  rw [if_neg stands, if_pos waiting, shut, if_neg (by decide), homed, if_neg (by decide)]

theorem pedal_resumes (waits : s.pedalWaits) (shut : s.guardOpen = false) (homed : s.motion.homed = true) :
    actResume s = s.pedal.done := by
  have may := mayResume_iff.mpr ⟨shut, homed⟩
  rcases waits with suspended | ⟨held, recover⟩
  · rw [actResume_passes (.inl suspended) shut homed, if_pos suspended]
    unfold State.pedal
    rw [if_pos (by rw [suspended, may]; rfl)]
  · have other : s.cycle.state ≠ .suspended := by rw [held]; decide
    rw [actResume_passes (.inr held) shut homed, if_neg other]
    unfold State.pedal
    rw [if_neg (by rw [held]; exact Bool.false_ne_true), if_pos (by rw [heldFor_recover held recover, may]; rfl)]

end

theorem inbound_flush (s : State) : s.flush.link.inbound = s.link.inbound := by
  have fold (ns : List OutRecord) : ∀ l : LinkPort, (ns.foldl LinkPort.queueNotice l).inbound = l.inbound := by
    induction ns with
    | nil => exact fun l => rfl
    | cons n ns ih =>
      intro l
      refine (ih _).trans ?_
      unfold LinkPort.queueNotice
      split <;> rfl
  exact fold s.link.formed { s.link with formed := [] }

/-- The close of a command leaves the inbound queue and adds to the outbound one. -/
theorem close_queues (s : State) :
    s.link.outbound <+: s.close.link.outbound ∧ s.close.link.inbound = s.link.inbound := by
  unfold State.close
  have outbound := blind_outbound.takeEntries s.motion.queue.length s
  have inbound := blind_inbound.takeEntries s.motion.queue.length s
  exact ⟨outbound ▸ (flush_outbound _).1, (inbound_flush _).trans inbound⟩

/-- Settles O54. -/
theorem linesStopAndFault : Obligations.LinesStopAndFault := by
  refine ⟨fun s rest safe level => ⟨fun low silent => ⟨fun unlatched => ?_, fun r latched small => ?_⟩,
    fun high silent => ?_⟩, fun s i rest safe unlatched => ?_, fun s tag ready safe => ?_,
    fun s i rest safe unlatched => ?_, fun s p e more rest safe queue => ?_⟩
  · have fails : exec (.lineWireChange 0 true) s = .next ((s.setLine 0 { s.bed.lines.get 0 with
        wire := true, taken := true, timer := none }).faulted .estop .none none) := by
      rw [exec_lineWireChange rest, wireChange_rise (.inl rfl) (level.trans low) low silent]
      exact congrArg (fun u => Host.Outcome.next (State.close u)) (lineActs_estop (s := s.setLine 0 _) unlatched)
    refine ⟨_, _, fails, halted_faulted .., record_faulted .., rfl, rfl, rfl, rfl, rfl, queue_faulted ..,
      executing_faulted .., kiss_faulted .., thru_faulted .., homed_faulted .., head_faulted .., ?_⟩
    rw [bed_faulted, cycle_faulted, cycle_faultEntry, store_faulted, nest_faulted]
    obtain ⟨r, w, only⟩ := owedAtFault_only (s.setLine 0 { s.bed.lines.get 0 with
      wire := true, taken := true, timer := none }) none
    rw [only]
    exact ⟨rfl, rfl, rfl, rfl, fun z => Table.get_map .., rfl, rfl, rfl, rfl, rfl, rfl, rfl, rfl, rfl,
      link_faulted (s := s.setLine 0 _) _ _ _ rest.2⟩
  · have follows : exec (.lineWireChange 0 true) s = .next (((s.setLine 0 { s.bed.lines.get 0 with
        wire := true, taken := true, timer := none }).followOnFault .estop r)) := by
      rw [exec_lineWireChange rest, wireChange_rise (.inl rfl) (level.trans low) low silent,
        lineActs_estop_latched (s := s.setLine 0 _) latched]
      exact congrArg Host.Outcome.next (close_rest _ rest)
    have counts : min (r.followOn + 1) 255 = if r.followOn < 255 then r.followOn + 1 else 255 := by
      split <;> omega
    refine ⟨_, follows, ?_, rfl, rfl, rfl⟩
    rw [← counts]
    rfl
  · rw [exec_lineWireChange rest, wireChange_fall (.inl rfl) (level.trans high) high silent]
    exact congrArg Host.Outcome.next (close_rest (s.setLine 0 _) rest)
  · intro l running moved noRise noFall quiet faults
    have moves : s.filterExpires i = quiet.lineActs i l.wire :=
      (filterExpires_running running).trans (takeLevel_silent moved noRise noFall)
    have fails {k : FaultKind} {d : FaultDetail} (other : ¬(k = .estop ∨ k = .homeFail))
        (acts : quiet.lineActs i l.wire = quiet.faultEntry k d none) : faults k d := by
      refine ⟨quiet.faulted k d none, quiet.faultRecord k d, ?_, halted_faulted .., record_faulted .., rfl, rfl, rfl,
        queue_faulted .., executing_faulted .., (homed_faulted ..).trans (if_neg other)⟩
      rw [exec_filterExpiry rest, moves, acts]
      rfl
    have silent (acts : quiet.lineActs i l.wire = quiet) : exec (.filterExpiry i) s = .next quiet := by
      rw [exec_filterExpiry rest, moves, acts, close_rest quiet rest]
    refine ⟨?_, ?_, ?_⟩
    · rintro rfl wire
      rw [wire] at fails silent
      refine ⟨fun e more queue => fails (by decide) (lineActs_guard (s := quiet) unlatched
        (executingEntry_of_queue rest.1 queue)), fun empty => silent (lineActs_guard_idle (s := quiet)
        (executingEntry_idle rest.1 empty))⟩
    · rintro rfl wire
      rw [wire] at fails silent
      refine ⟨fun needs => fails (by decide) (lineActs_vacuum (s := quiet) unlatched needs), fun spare =>
        silent (lineActs_vacuum_spare (s := quiet) ?_)⟩
      show ¬s.cycle.state.needsVacuum
      unfold CycleState.needsVacuum
      rcases spare with h | h | h | h <;> rw [h] <;> decide
    · rintro rfl wire
      rw [wire] at fails silent
      exact ⟨fun d more queue => fails (by decide) (lineActs_media (s := quiet) unlatched
        (executingEntry_of_queue rest.1 queue)), fun empty => silent (lineActs_media_idle (s := quiet)
        (executingEntry_idle rest.1 empty))⟩
  · intro l quiet waiting running wire low silent
    have moves : exec (.filterExpiry 5) s = .next quiet.pedal.close := by
      rw [exec_filterExpiry ready.1, filterExpires_running running, takeLevel_rise wire low silent]
      rfl
    have guard : quiet.guardOpen = (s.bed.lines.get 1).taken :=
      congrArg Line.taken (Table.get_set_ne s.bed.lines _ (by decide))
    refine ⟨fun idle => ?_, fun waits shut homed => ?_⟩
    · rw [moves, pedal_idle (s := quiet) (by rw [guard]; exact idle), close_rest quiet ready.1]
    · have resumes := request_acted (s := quiet) (i := .resume tag) (k := 0x23) (tag := tag) ready rfl
        (pedal_resumes (s := quiet) waits (guard.trans shut) homed)
      have same := units_close quiet.pedal (quiet.pedal.queueReply 0x23 tag .ok [] none).link
      simp only [State.unitsOf, Prod.mk.injEq] at same
      obtain ⟨_, store, nest, marks, plan, cycle, motion, bed⟩ := same
      have ⟨outbound, inbound⟩ := close_queues quiet.pedal
      have out : quiet.pedal.link.outbound = s.link.outbound := blind_outbound.pedal quiet
      have in_ : quiet.pedal.link.inbound = s.link.inbound := blind_inbound.pedal quiet
      exact ⟨_, _, moves, resumes, store.symm, nest.symm, marks.symm, plan.symm, cycle.symm, motion.symm, bed.symm,
        out ▸ outbound, inbound.trans in_⟩
  · intro l change wire low reports running where_
    have fails {k : FaultKind} {d : FaultDetail}
        (changes : exec change s = .next ((s.reported i).lineActs i true).close)
        (acts : (s.reported i).lineActs i true = (s.reported i).faultEntry k d none) : ∃ t r,
        exec change s = .next t ∧ t.cycle.state = .halted ∧ t.cycle.fault = some r ∧ r.kind = k ∧
        t.bed.lines.get i = l.risen ∧ t.link = (s.link.queueNotice
          ⟨0x69, 0, [u8 i.val, 0, 1, u8 t.levels], none⟩).queueNotice (faultNotice r) := by
      have lines : ((s.reported i).faulted k d none).bed.lines = s.bed.lines.set i l.risen :=
        congrArg BedIO.lines (bed_faulted ..)
      have levels : ((s.reported i).faulted k d none).levels = (s.setLine i l.risen).levels := by
        unfold State.levels State.level
        rw [lines]
        rfl
      refine ⟨_, (s.reported i).faultRecord k d, changes.trans (by rw [acts]; rfl), halted_faulted ..,
        record_faulted .., rfl, ?_, ?_⟩
      · rw [lines]
        exact Table.get_set_self ..
      · rw [levels]
        exact link_faulted_reported (s := s.setLine i l.risen) rest.2 ..
    have expires (other : i ≠ 0) : exec change s = .next ((s.reported i).lineActs i true).close := by
      rw [show change = .filterExpiry i from if_neg other, exec_filterExpiry rest,
        filterExpires_running (running other), takeLevel_reported (wire.trans (decide_eq_true other)) low reports]
    rcases where_ with rfl | ⟨rfl, moving⟩ | ⟨rfl, feeding⟩
    · have changes : exec change s = .next ((s.reported 0).lineActs 0 true).close := by
        rw [show change = .lineWireChange 0 true from rfl, exec_lineWireChange rest,
          wireChange_reported (.inl rfl) wire low reports]
      exact fails changes (lineActs_estop (s := s.reported 0) unlatched)
    · obtain ⟨e, more, queue⟩ := List.exists_cons_of_ne_nil moving
      exact fails (expires (by decide)) (lineActs_guard (s := s.reported 1) unlatched
        (executingEntry_of_queue rest.1 queue))
    · obtain ⟨d, more, queue⟩ := (feedExecuting_iff rest.1).mp feeding
      exact fails (expires (by decide)) (lineActs_media (s := s.reported 3) unlatched
        (executingEntry_of_queue rest.1 queue))
  · intro homed inside faults taken meets
    have unlatched := fault_of_moving safe queue
    obtain ⟨completes, left, idle⟩ := exec_travel_completes rest queue
    have fails {k : FaultKind} {d : FaultDetail} (other : ¬(k = .estop ∨ k = .homeFail))
        (takes : (s.arrived p).takeEntry e = (s.arrived p).faultEntry k d (some e)) : faults k d := by
      refine ⟨(s.arrived p).faulted k d (some e), (s.arrived p).faultRecord k d, ?_, halted_faulted ..,
        record_faulted .., rfl, rfl, rfl, rfl, queue_faulted .., executing_faulted ..,
        (homed_faulted ..).trans (if_neg other), kiss_faulted .., thru_faulted .., ?_⟩
      · rw [completes, close_takes_fault idle left takes]
      · rw [bed_faulted]
        exact ⟨rfl, rfl, rfl, link_faulted (s := s.arrived p) _ _ _ rest.2⟩
    refine ⟨fun open_ => fails (by decide) (takeEntry_guard (t := s.arrived p) unlatched open_), fun shut => ?_⟩
    have limited {q : BedPos} (limit : limitFailure homed e = some q) :
        faults .motionLimit (.limit e.kind q (!homed)) :=
      fails (by decide) (takeEntry_limit (t := s.arrived p) unlatched shut limit)
    have passes (limit : limitFailure homed e = none) := takeEntry_passes (t := s.arrived p) shut limit
    have runs {u : State} (notHome : e ≠ .home) (takes : (s.arrived p).takeEntry e = u) (quiet : u.link.formed = []) :
        exec .moveCompletion s = .next u := by
      rw [completes, close_takes idle left notHome, takes, flush_quiet quiet]
    have travels {speed : Nat} (notHome : e ≠ .home)
        (takes : (s.arrived p).takeEntry e = ((s.arrived p).startExecuting (some speed)).raiseTools) :
        taken speed none := ⟨_, runs notHome takes rest.2, left, rfl, rfl, rfl, rfl, rfl, rfl, rfl, rfl⟩
    have meets_of {q : BedPos} {speed : Nat} {tool : Option Tool}
        (limit : limitFailure homed e = if homed && q.onBed then none else some q)
        (takes : limitFailure homed e = none → taken speed tool) : meets q speed tool := by
      have onBed : q.onBed = true ↔ inside q := onBed_iff
      refine ⟨fun off => limited (limit.trans (if_neg ?_)), fun on isHomed => takes (limit.trans (if_pos ?_))⟩
      · rw [Bool.and_eq_true, onBed]
        rintro ⟨isHomed, on⟩
        rcases off with out | lost
        · exact out on
        · exact nomatch isHomed.symm.trans lost
      · rw [Bool.and_eq_true, onBed]
        exact ⟨isHomed, on⟩
    refine ⟨?_, ?_, ?_, ?_, ?_⟩
    · rintro producer q rfl
      exact meets_of rfl fun limit => travels nofun (passes limit)
    · rintro q ref rfl
      exact meets_of rfl fun limit =>
        ⟨_, runs nofun (passes limit) rest.2, left, rfl, rfl, rfl, rfl, rfl, rfl, rfl, rfl⟩
    · rintro q ref rfl
      exact meets_of rfl fun limit =>
        ⟨_, runs nofun (passes limit) rest.2, left, rfl, rfl, rfl, rfl, rfl, rfl, rfl, rfl⟩
    · rintro r rfl
      intro a b
      have limit : limitFailure homed (.search r) = if !a.onBed then some a else if !b.onBed then some b else
        if homed then none else some a := rfl
      have onBed (q : BedPos) : q.onBed = true ↔ inside q := onBed_iff
      have on {q : BedPos} (h : inside q) : ¬(!q.onBed) = true := by rw [(onBed q).mpr h]; decide
      have off {q : BedPos} (h : ¬inside q) : (!q.onBed) = true := by
        rw [Bool.eq_false_iff.mpr ((onBed q).not.mpr h)]
        rfl
      refine ⟨fun out => limited (limit.trans (if_pos (off out))),
        fun inA out => limited (limit.trans ((if_neg (on inA)).trans (if_pos (off out)))), fun inA inB lost => ?_,
        fun inA inB isHomed => travels nofun (passes ?_)⟩
      · have fault := limited (limit.trans ((if_neg (on inA)).trans ((if_neg (on inB)).trans (if_neg (by
          rw [lost]; decide)))))
        rw [lost] at fault
        exact fault
      · exact limit.trans ((if_neg (on inA)).trans ((if_neg (on inB)).trans (if_pos isHomed)))
    · rintro d rfl ended
      have faulty := passes rfl
      dsimp only at faulty
      rw [show (s.arrived p).mediaEnd = true from ended, if_pos rfl,
        raiseFault_unlatched (s := s.arrived p) unlatched] at faulty
      exact fails (by decide) faulty

end Sys2Proof.Machine

/-! The planner's issuing: what it can change, and the entry it places with a travel due (R82 to R84). -/

namespace Sys2Proof.Machine

/-! ### What issuing changes -/

/-- The worklist with another issue pointer, start-passed mark and answer stop: its items and its window stay. -/
def Worklist.reissued (w : Worklist) (issue : IssuePointer) (passed : Option Nat) (stopped : Bool) : Worklist :=
  { w with issue := issue, startPassed := passed, stopped := stopped }

/-- The planner has issued: entries behind the queue, notices behind those formed, item starts reported to the cycle,
the issue pointer moved (R83, R84). -/
structure State.Issued (s t : State) : Prop where
  pending : t.pending = s.pending
  link : ∃ formed, t.link = { s.link with formed := s.link.formed ++ formed }
  store : t.store = s.store
  nest : t.nest = s.nest
  marks : t.marks = s.marks
  bed : t.bed = s.bed
  plan : ∃ issue passed stopped, t.plan =
    { s.plan with worklist := s.plan.worklist.map fun w => w.reissued issue passed stopped }
  cycle : ∃ step brk halts, t.cycle =
    { s.cycle with reasons := { s.cycle.reasons with step := step, brk := brk }, halts := halts }
  motion : ∃ issued, t.motion = { s.motion with queue := s.motion.queue ++ issued }

theorem withWorklist_self {pl : Planner} {w : Worklist} (planned : pl.worklist = some w) :
    { pl with worklist := some w } = pl := by
  cases pl
  cases planned
  rfl

namespace State.Issued

theorem refl (s : State) : s.Issued s where
  pending := rfl
  link := ⟨[], by rw [List.append_nil]⟩
  store := rfl
  nest := rfl
  marks := rfl
  bed := rfl
  plan := by
    cases planned : s.plan.worklist with
    | none => exact ⟨⟨none, 0, 0, false, false⟩, none, false, by rw [Option.map_none, ← planned]⟩
    | some w => exact ⟨w.issue, w.startPassed, w.stopped, (withWorklist_self planned).symm⟩
  cycle := ⟨s.cycle.reasons.step, s.cycle.reasons.brk, s.cycle.halts, rfl⟩
  motion := ⟨[], by rw [List.append_nil]⟩

theorem trans {a b c : State} (h : a.Issued b) (k : b.Issued c) : a.Issued c := by
  obtain ⟨pending, ⟨formed, link⟩, store, nest, marks, bed, ⟨i, p, st, plan⟩, ⟨x, y, z, cycle⟩, q, motion⟩ := h
  obtain ⟨pending', ⟨formed', link'⟩, store', nest', marks', bed', ⟨i', p', st', plan'⟩, ⟨x', y', z', cycle'⟩, q',
    motion'⟩ := k
  refine ⟨pending'.trans pending, ⟨formed ++ formed', ?_⟩, store'.trans store, nest'.trans nest, marks'.trans marks,
    bed'.trans bed, ⟨i', p', st', ?_⟩, ⟨x', y', z', ?_⟩, q ++ q', ?_⟩
  · rw [link', link, List.append_assoc]
  · rw [plan', plan, Option.map_map]
    rfl
  · rw [cycle', cycle]
  · rw [motion', motion, List.append_assoc]

end State.Issued

/-- A worklist that the planner writes back while issuing. -/
theorem issued_withPlan {s : State} {w : Worklist} (planned : s.plan.worklist = some w) (issue : IssuePointer)
    (passed : Option Nat) (stopped : Bool) :
    s.Issued (s.withPlan { s.plan with worklist := some (w.reissued issue passed stopped) }) :=
  { State.Issued.refl s with
    plan := ⟨issue, passed, stopped, by rw [planned]; rfl⟩ }

theorem issued_place (s : State) (e : Entry) : s.Issued (s.place e) := by
  unfold State.place
  split
  · exact { State.Issued.refl s with motion := ⟨[e], rfl⟩ }
  · exact .refl s

theorem issued_testItemStart (s : State) (w : Worklist) (r : ItemStart) : s.Issued (s.testItemStart w r).1 := by
  have link := link_testItemStart s w r
  have base := rest_testItemStart s w r
  generalize made : (s.testItemStart w r).1 = t at base link
  have cycle : t.cycle = _ := made ▸ cycle_testItemStart s w r
  refine ⟨?pending, ?link, ?store, ?nest, ?marks, ?bed, ?plan, ⟨_, _, _, cycle⟩, ?motion⟩
  case link =>
    rw [link]
    split
    · exact ⟨[], by rw [List.append_nil]⟩
    · exact ⟨_, rfl⟩
  case plan =>
    rw [base]
    exact (State.Issued.refl s).plan
  case motion =>
    rw [base]
    exact ⟨[], by rw [List.append_nil]⟩
  all_goals rw [base]

section
variable {s : State} {w : Worklist} (planned : s.plan.worklist = some w)
include planned

theorem issued_issueTravel (it : Item) (issue : IssuePointer) (passed : Option Nat) (stopped : Bool) :
    s.Issued (s.issueTravel (w.reissued issue passed stopped) it).1 := by
  unfold State.issueTravel
  split
  · exact issued_withPlan planned issue passed stopped
  · rename_i target _
    exact (issued_withPlan planned { issue with travelDue := false, reported := false } passed stopped).trans
      (issued_place ..)

theorem issued_issueCut (i : Nat) (it : Item) (issue : IssuePointer) :
    s.Issued (s.issueCut (w.reissued issue w.startPassed w.stopped) i it).1 := by
  unfold State.issueCut
  extract_lets pass n
  split
  · exact issued_withPlan planned issue w.startPassed w.stopped
  · rename_i target _
    exact (issued_withPlan planned ((w.reissued issue w.startPassed w.stopped).afterCut i it pass n) w.startPassed
      w.stopped).trans (issued_place ..)

theorem issued_issueItem (i : Nat) (it : Item) (issue : IssuePointer) :
    s.Issued (s.issueItem (w.reissued issue w.startPassed w.stopped) i it).1 := by
  generalize pointed : w.reissued issue w.startPassed w.stopped = v
  have travels (issue : IssuePointer) (passed : Option Nat) :
      s.Issued (s.issueTravel (w.reissued issue passed w.stopped) it).1 := issued_issueTravel planned ..
  unfold State.issueItem
  split
  · split
    · extract_lets r
      have tested := issued_testItemStart s v r
      have same : (s.testItemStart v r).1.plan = s.plan := by rw [rest_testItemStart]
      generalize s.testItemStart v r = answer at tested same
      obtain ⟨t, go⟩ := answer
      have planned' : t.plan.worklist = some w := by rw [show t.plan = s.plan from same, planned]
      cases go with
      | true =>
        subst pointed
        exact tested.trans (issued_issueTravel planned' it { issue with reported := true } _ _)
      | false =>
        subst pointed
        exact tested.trans (issued_withPlan planned' issue (some i) true)
    · show s.Issued (s.issueTravel (if v.startPassed = some i then
        { v with startPassed := none, issue := { v.issue with reported := true } } else v) it).1
      subst pointed
      split
      · exact travels { issue with reported := true } none
      · exact travels issue w.startPassed
  · subst pointed
    exact issued_issueCut planned i it issue

end

/-- The issue pointer moved past spent items. -/
theorem passDone_reissued (w : Worklist) : ∃ issue, w.passDone = w.reissued issue w.startPassed w.stopped := by
  unfold Worklist.passDone
  split
  · exact ⟨w.issue, rfl⟩
  · split
    · exact ⟨_, rfl⟩
    · split
      · exact ⟨w.issue, rfl⟩
      · exact ⟨_, rfl⟩

theorem issued_issueOne (s : State) : s.Issued s.issueOne.1 := by
  unfold State.issueOne
  split
  · exact .refl s
  · rename_i w planned
    obtain ⟨issue, moved⟩ := passDone_reissued w
    extract_lets v
    rw [show v = _ from moved]
    split
    · exact issued_withPlan planned issue w.startPassed w.stopped
    · split
      · exact .refl s
      · exact issued_issueItem planned _ _ issue

theorem issued_issueLoop (n : Nat) (s : State) : s.Issued (s.issueLoop n).1 := by
  induction n generalizing s with
  | zero => exact .refl s
  | succ n ih =>
    have one := issued_issueOne s
    unfold State.issueLoop
    generalize s.issueOne = answer at one
    obtain ⟨t, stop⟩ := answer
    cases stop with
    | placed => exact one.trans (ih t)
    | ended | stopped | refused => exact one

theorem issued_issue (s : State) : s.Issued s.issue.1 := by
  unfold State.issue
  split
  · exact .refl s
  · split
    · exact .refl s
    · split
      · exact .refl s
      · exact issued_issueLoop ..

/-- The answer stop no longer standing (R83). -/
def State.unstopped (s : State) : State := s.mapWorklist fun w => { w with stopped := false }

theorem issued_unstopped (s : State) : s.Issued s.unstopped := by
  refine { State.Issued.refl s with plan := ?_ }
  unfold State.unstopped State.mapWorklist
  cases planned : s.plan.worklist with
  | none => exact ⟨⟨none, 0, 0, false, false⟩, none, false, rfl⟩
  | some w => exact ⟨w.issue, w.startPassed, false, rfl⟩

/-- What the cycle makes of the end of an issuing (R83, R88, R103). -/
theorem issueWith_eq (f : State → State) (s : State) : s.issueWith f =
    if s.unstopped.issue.1.windowSpent then s.unstopped.issue.1.windowDone
    else if s.unstopped.issue.2 = .refused && !s.unstopped.issue.1.plannerQueued then f s.unstopped.issue.1
    else if s.unstopped.issue.2 = .stopped then s.unstopped.issue.1.suspendIfDrained
    else s.unstopped.issue.1 := rfl

end Sys2Proof.Machine

/-! The completion of a window (R88), and the readying with no seam pending, which never ends at the seam (R60, R68). -/

namespace Sys2Proof.Machine

/-! ### The completion of a window -/

theorem foldl_emit {α : Type} (f : α → OutRecord) (l : List α) (s : State) :
    l.foldl (fun t i => t.emit (f i)) s = s.withLink { s.link with formed := s.link.formed ++ l.map f } := by
  induction l generalizing s with
  | nil => rw [List.map_nil, List.append_nil]; rfl
  | cons a l ih =>
    rw [List.foldl_cons, ih, List.map_cons]
    show s.withLink { s.link with formed := (s.link.formed ++ [f a]) ++ l.map f } = _
    rw [List.append_assoc]
    rfl

/-- The worklist's window has been completed before (R88). -/
def State.alreadyDone (s : State) : Bool := match s.plan.worklist with
  | some w => w.completed
  | none => false

/-- The panels and the worklist at the completion of a window, its PANEL_DONE notices formed (R88). -/
def State.counted (s : State) : State :=
  ((s.withStore { s.store with
    panels := s.store.panels.map fun _ p => p.atWindowDone s.nest.params s.cycle.pointer }).mapWorklist
      fun w => { w with completed := true }).withLink { s.link with
        formed := s.link.formed ++ (s.cutAtDone s.cycle.pointer).map fun i => panelDoneNotice i s.cycle.pointer }

/-- The state in which a window completion looks for panels still to cut (R88). -/
def State.doneBase (s : State) : State := if s.alreadyDone then s else s.counted

theorem completeWindow_eq (s : State) : s.completeWindow =
    if anyToCutFrom s.nest.params s.doneBase.store.panels.cells (s.cycle.pointer + 1) then
      (s.doneBase.emit (windowDoneNotice s.cycle.pointer), true)
    else ((s.doneBase.emit (windowDoneNotice s.cycle.pointer)).emit (runDoneNotice s.cycle.pointer), false) := by
  have base : (if s.alreadyDone then s else (s.cutAtDone s.cycle.pointer).foldl
      (fun t i => t.emit (panelDoneNotice i s.cycle.pointer))
      ((s.withStore { s.store with
        panels := s.store.panels.map fun _ p => p.atWindowDone s.nest.params s.cycle.pointer }).mapWorklist
          fun w => { w with completed := true })) = s.doneBase := by
    unfold State.doneBase
    rw [foldl_emit]
    rfl
  rw [← base]
  rfl

/-- A window completion changes the notices formed, the panels and the worklist alone. -/
theorem completeWindow_keeps (s : State) : ∃ link panels plan, s.completeWindow.1 =
    { s with link := link, store := { s.store with panels := panels }, plan := plan } := by
  have base : ∃ link panels plan, s.doneBase =
      { s with link := link, store := { s.store with panels := panels }, plan := plan } := by
    unfold State.doneBase
    split
    · exact ⟨s.link, s.store.panels, s.plan, rfl⟩
    · exact ⟨_, _, _, rfl⟩
  obtain ⟨link, panels, plan, base⟩ := base
  rw [completeWindow_eq]
  split
  · exact ⟨_, panels, plan, by rw [base]; rfl⟩
  · exact ⟨_, panels, plan, by rw [base]; rfl⟩

/-! ### No seam pending -/

/-- No seam is pending, and the cycle is not held for its deviation. -/
def State.seamClear (s : State) : Prop := s.marks.seam = none ∧ s.cycle.hold ≠ some .seamDeviation

section
variable {s : State} (clear : s.seamClear)
include clear

theorem seamClear_setCycle (st : CycleState) : (s.setCycle st).seamClear := by
  refine ⟨clear.1, ?_⟩
  show (if st = .held then s.cycle.hold else none) ≠ some HoldReason.seamDeviation
  split
  · exact clear.2
  · exact nofun

theorem seamClear_issued {t : State} (issued : s.Issued t) : t.seamClear := by
  obtain ⟨_, _, _, cycle⟩ := issued.cycle
  unfold State.seamClear
  rw [issued.marks, cycle]
  exact clear

theorem seamClear_takeSuspension (resume : ResumePoint) : (s.takeSuspension resume).seamClear := by
  rw [takeSuspension_eq rfl]
  exact ⟨clear.1, nofun⟩

theorem seamClear_enterHeld {reason : HoldReason} (other : reason ≠ .seamDeviation) (detail : List Byte) :
    (s.enterHeld reason detail).seamClear := by
  rw [enterHeld_eq rfl]
  exact ⟨clear.1, fun h => other (Option.some.inj h)⟩

omit clear in
theorem seamClear_stopEffect (s : State) : s.stopEffect.seamClear := by
  rw [stopEffect_eq rfl]
  exact ⟨rfl, nofun⟩

theorem seamClear_place (e : Entry) : (s.place e).seamClear := by
  unfold State.place
  split
  · exact ⟨clear.1, clear.2⟩
  · exact clear

theorem seamClear_windowDone : s.windowDone.seamClear := by
  obtain ⟨link, panels, plan, done⟩ := completeWindow_keeps s
  have clear' : s.completeWindow.1.seamClear := by
    rw [done]
    exact clear
  unfold State.windowDone
  generalize s.completeWindow = answer at clear'
  obtain ⟨t, more⟩ := answer
  cases more with
  | false =>
    dsimp only
    split
    · exact seamClear_stopEffect t
    · exact seamClear_setCycle (s := t.releaseZones.clearReasons.withCycle _) ⟨clear'.1, clear'.2⟩ .idle
  | true =>
    dsimp only
    split
    · exact seamClear_takeSuspension clear' .feed
    · split
      · exact seamClear_stopEffect t
      · have fed : ((t.setCycle .feeding).releaseZones.withCycle
            { (t.setCycle .feeding).cycle with feedJob := some ⟨.run, 1⟩ }).seamClear :=
          ⟨clear'.1, nofun⟩
        exact seamClear_place fed _

theorem seamClear_suspendIfDrained : s.suspendIfDrained.seamClear := by
  unfold State.suspendIfDrained
  split
  · exact seamClear_takeSuspension clear .continue
  · exact clear

end

/-- An operation of the cycle that leaves no seam pending where none was. -/
def ClearsSeam (f : State → State) : Prop := ∀ s : State, s.seamClear → (f s).seamClear

theorem clearsSeam_issueWith {f : State → State} (onRefused : ClearsSeam f) : ClearsSeam (State.issueWith f) := by
  intro s clear
  have issued : s.unstopped.issue.1.seamClear :=
    seamClear_issued clear ((issued_unstopped s).trans (issued_issue s.unstopped))
  rw [issueWith_eq]
  split
  · exact seamClear_windowDone issued
  · split
    · exact onRefused _ issued
    · split
      · exact seamClear_suspendIfDrained issued
      · exact issued

theorem clearsSeam_checks {f : State → State} (onReady : ClearsSeam f) : ClearsSeam (State.checks f) := by
  intro s clear
  have checks : s.marks.seamFailure = none := by
    unfold MarkUnit.seamFailure
    rw [clear.1]
  unfold State.checks
  split
  · exact seamClear_enterHeld (reason := .markMissed) clear (by decide) _
  · split
    · exact onReady _ (seamClear_setCycle clear .cutting)
    · rw [checks]
      dsimp only
      have checked : (s.withMarks ({ s.marks with seam := none }.checkSpan s.nest.params)).seamClear := by
        refine ⟨?_, clear.2⟩
        show ({ s.marks with seam := none }.checkSpan s.nest.params).seam = none
        unfold MarkUnit.checkSpan
        split <;> rfl
      split
      · exact seamClear_enterHeld (reason := .markGeometry) checked (by decide) _
      · exact onReady _ (seamClear_setCycle checked .cutting)

theorem seam_setMark (mu : MarkUnit) (row : Nat) (side : Side) (m : Mark) : (mu.setMark row side m).seam = mu.seam := by
  unfold MarkUnit.setMark
  split <;> rfl

theorem seamClear_recordSearch {s : State} (clear : s.seamClear) (row : Nat) (side : Side) (found : Option BedPos) :
    (s.recordSearch row side found).seamClear := by
  refine ⟨?_, ?_⟩
  · unfold State.recordSearch
    extract_lets mu
    split
    · exact clear.1
    · split
      · exact (seam_setMark ..).trans clear.1
      · split
        · exact clear.1
        · exact (seam_setMark ..).trans clear.1
  · have same : (s.recordSearch row side found).cycle = s.cycle := by
      unfold State.recordSearch
      extract_lets mu
      split
      · rfl
      · split
        · rfl
        · split <;> rfl
    rw [same]
    exact clear.2

theorem seamClear_afterSearch {f : State → State} (goOn : ClearsSeam f) {s : State} (clear : s.seamClear)
    (missed : Option (Nat × Side)) : (s.afterSearch missed f).seamClear := by
  unfold State.afterSearch
  split
  · exact clear
  · split
    · exact seamClear_stopEffect s
    · split
      · exact seamClear_enterHeld (reason := .markMissed) clear (by decide) _
      · split
        · exact seamClear_takeSuspension clear .continue
        · exact goOn s clear

theorem clearsSeam_searchFrom {f : State → State} (onReady : ClearsSeam f) (n : Nat) :
    ClearsSeam (State.searchFrom f n) := by
  induction n with
  | zero => exact fun s clear => clear
  | succ n ih =>
    intro s clear
    unfold State.searchFrom
    split
    · exact clear
    · split
      · exact clearsSeam_checks onReady s clear
      · rename_i row side _
        split
        · exact clear
        · rename_i m _
          extract_lets centre tried
          have attempted : (s.withMarks tried).seamClear := ⟨(seam_setMark ..).trans clear.1, clear.2⟩
          split
          · split
            · unfold State.place
              split <;> exact attempted
            · exact clear
          · exact seamClear_afterSearch ih (seamClear_recordSearch attempted row side none) _

theorem clearsSeam_reopen : ClearsSeam State.reopen := by
  intro s clear
  have opened : (s.openWindow none).toReadying.seamClear := ⟨rfl, nofun⟩
  exact clearsSeam_searchFrom (clearsSeam_issueWith fun _ h => h) 3 _ opened

theorem seamClear_continueReadying {s : State} (seam : s.marks.seam = none) : s.continueReadying.seamClear := by
  have goesOn : (s.withMarks s.marks.continued).toReadying.seamClear := by
    refine ⟨?_, nofun⟩
    show s.marks.continued.seam = none
    unfold MarkUnit.continued
    split <;> exact seam
  exact clearsSeam_searchFrom (clearsSeam_issueWith clearsSeam_reopen) 3 _ goesOn

/-! ### The close of a command with no seam pending -/

theorem seamClear_raiseFault {s : State} (clear : s.seamClear) (k : FaultKind) (d : FaultDetail) (e : Option Entry) :
    (s.raiseFault k d e).seamClear := by
  unfold State.raiseFault
  split
  · unfold State.seamClear
    rw [marks_faultEntry, cycle_faultEntry]
    refine ⟨?_, nofun⟩
    split
    · rfl
    · exact clear.1
  · unfold State.followOnFault
    extract_lets a b
    split <;> exact ⟨clear.1, clear.2⟩

theorem seamClear_settleHome {s : State} (clear : s.seamClear) : s.settleHome.seamClear := by
  unfold State.settleHome
  split
  · let ended := s.endEntry.withMotion { s.endEntry.motion with head := some ⟨0, 0⟩, homed := true }
    have home : (if s.cycle.state = .homing then ended.setCycle .idle else ended).seamClear := by
      split
      · exact seamClear_setCycle (s := ended) ⟨clear.1, clear.2⟩ .idle
      · exact ⟨clear.1, clear.2⟩
    have rests {u : State} (h : u.seamClear) : u.restTools.seamClear := by
      unfold State.restTools
      split <;> exact ⟨h.1, h.2⟩
    exact rests home
  · exact clear

theorem seamClear_takeEntry {s : State} (clear : s.seamClear) (e : Entry) : (s.takeEntry e).seamClear := by
  unfold State.takeEntry
  split
  · exact seamClear_raiseFault clear ..
  · split
    · exact seamClear_raiseFault clear ..
    · cases e with
      | feed d =>
        dsimp only
        split
        · exact seamClear_raiseFault clear ..
        · exact ⟨clear.1, clear.2⟩
      | home => exact seamClear_settleHome (s := s.startHome) ⟨clear.1, clear.2⟩
      | travel | search => exact ⟨clear.1, clear.2⟩
      | cut tool => cases tool <;> exact ⟨clear.1, clear.2⟩

theorem seamClear_close {s : State} (clear : s.seamClear) : s.close.seamClear := by
  have takes (n : Nat) : ∀ u : State, u.seamClear → (u.takeEntries n).seamClear := by
    induction n with
    | zero => exact fun u h => h
    | succ n ih =>
      intro u h
      unfold State.takeEntries
      split
      · exact h
      · split
        · exact h
        · rename_i e _ _
          extract_lets t
          have taken : t.seamClear := seamClear_takeEntry h e
          split
          · exact ih t taken
          · exact taken
  exact takes s.motion.queue.length s clear

end Sys2Proof.Machine

/-! ACCEPT_SEAM and REMEASURE (R59, R68, R69). -/

namespace Sys2Proof.Machine

/-! ### The readying continued -/

theorem continued_of_span {mu : MarkUnit} {sp : Span} (fixed : mu.span = some sp) :
    mu.continued = mu.withRows (mapSpan sp Mark.atContinuation mu.rows) := by
  unfold MarkUnit.continued
  rw [fixed]

theorem getElem?_mapSpan_inside {sp : Span} {i : Nat} {rows : List MarkRow} {r : MarkRow} (least : sp.first ≤ i)
    (most : i ≤ sp.last) (exists_ : rows[i]? = some r) (f : Mark → Mark) :
    (mapSpan sp f rows)[i]? = some ⟨f r.left, f r.right⟩ := by
  rw [mapSpan_eq, List.getElem?_mapIdx, exists_]
  exact congrArg some (if_pos ⟨least, most⟩)

/-- The readying goes on at the first mark of the span when it is UNREAD or MISSED (R56, R59). -/
theorem continueReadying_searches {s : State} {sp : Span} {row : MarkRow} {rect : Rect}
    (fixed : s.marks.span = some sp) (some_ : sp.first ≤ sp.last) (exists_ : s.marks.rows[sp.first]? = some row)
    (unread : row.left.atContinuation.state = .unread) (going : s.cycle.stopPending = false)
    (empty : s.motion.queue = [])
    (clipped : clipToBed (searchSquare s.marks.searchSize row.left.atContinuation.attempts
      (nominalBed s.nest.params s.cycle.pointer sp.first .left)) = some rect) :
    s.continueReadying =
      (s.withMarks s.marks.continued).readied.searching sp.first .left row.left.atContinuation rect := by
  have continued := continued_of_span fixed
  have fixed' : s.marks.continued.span = some sp := by rw [continued]; exact fixed
  have mark : s.marks.continued.mark sp.first .left = some row.left.atContinuation := by
    rw [continued]
    exact mark_of_row (mu := s.marks.withRows _) (getElem?_mapSpan_inside (Nat.le_refl _) some_ exists_ _) .left
  have size : s.marks.continued.searchSize = s.marks.searchSize := by rw [continued]; rfl
  refine searchFrom_places (s := (s.withMarks s.marks.continued).readied) State.issueNow 2
    (inReadying_iff.mpr ⟨rfl, rfl⟩) going (firstIn_first fixed' some_ mark unread) mark ?_ empty
  refine Eq.trans ?_ clipped
  show clipToBed (searchSquare s.marks.continued.searchSize _ (s.marks.continued.searchCentre ..)) = _
  rw [size, searchCentre_first fixed']
  rfl

/-- A request that places a SEARCH in the empty queue of an idle motion unit (R56, R120). -/
theorem request_searches {i : Instr} {k tag : Byte} {act : State → Acted} {s u : State} {row : Nat} {side : Side}
    {m : Mark} {square rect : Rect} (ready : s.ready) (wf : i.wellFormed = true)
    (acted : act s = (u.searching row side m rect).done) (idle : u.motion.executing = false)
    (shut : u.guardOpen = false) (homed : u.motion.homed = true) (clipped : clipToBed square = some rect)
    (quiet : u.link.formed = []) :
    request i (serve k tag act) s = .next ((u.searching row side m rect).queueReply k tag .ok [] none).travels := by
  refine (request_acted ready wf acted).trans (congrArg Host.Outcome.next ?_)
  exact close_takes_search (t := (u.searching row side m rect).queueReply k tag .ok [] none) idle rfl shut homed
    clipped quiet

theorem seam_tried (mu : MarkUnit) (row : Nat) (side : Side) (m : Mark) (rect : Rect) :
    (mu.tried row side m rect).seam = mu.seam := seam_setMark ..

/-! ### ACCEPT_SEAM -/

section
variable {s : State} (held : s.heldFor .seamDeviation = true)
include held

theorem actAcceptSeam_held : actAcceptSeam s =
    if s.guardOpen then s.answer .guardOpen
    else if !s.motion.homed then s.answer .notHomed
    else (s.withMarks { s.marks with seam := none }).continueReadying.done := by
  unfold actAcceptSeam
  rw [held, if_neg (by decide)]

end

/-! ### REMEASURE -/

theorem actRemeasure_suspended {s : State} (suspended : s.cycle.state = .suspended) :
    actRemeasure s = s.unreadWindow.done := if_pos suspended

/-- HELD with a hold of the readying. -/
def State.holdsReadying (s : State) : Prop := s.cycle.state = .held ∧
  (s.cycle.hold = some .markMissed ∨ s.cycle.hold = some .markGeometry ∨ s.cycle.hold = some .seamDeviation)

theorem heldReadying_iff {s : State} : s.heldReadying = true ↔ s.holdsReadying := by
  unfold State.heldReadying State.holdsReadying
  simp only [Bool.or_eq_true, heldFor_iff]
  tauto

theorem actRemeasure_held {s : State} (held : s.holdsReadying) : actRemeasure s =
    if s.guardOpen then s.answer .guardOpen
    else if !s.motion.homed then s.answer .notHomed
    else s.unreadWindow.continueReadying.done := by
  have other : s.cycle.state ≠ .suspended := by rw [held.1]; decide
  unfold actRemeasure
  rw [if_neg other, heldReadying_iff.mpr held, if_neg (by decide)]

/-- The marks of a window made UNREAD, nothing in flight (R69). -/
theorem unreadWindow_eq {s : State} {sp : Span} (rows : s.currentRows = some sp) :
    s.unreadWindow = s.withMarks { s.marks.respan sp Mark.unread with flight := none } := by
  unfold State.unreadWindow
  rw [rows]
  rfl

theorem unread_atContinuation (m : Mark) : m.unread.atContinuation = m.unread := if_neg nofun

theorem mapSpan_unread_continued (sp : Span) (rows : List MarkRow) :
    mapSpan sp Mark.atContinuation (mapSpan sp Mark.unread rows) = mapSpan sp Mark.unread rows := by
  simp only [mapSpan_eq, List.mapIdx_mapIdx]
  refine List.mapIdx_eq_mapIdx_iff.mpr fun i _ => ?_
  simp only [Function.comp_apply]
  split
  · exact congrArg₂ MarkRow.mk (unread_atContinuation _) (unread_atContinuation _)
  · rfl

/-- Settles O48. -/
theorem seamAcceptedAndRemeasured : Obligations.SeamAcceptedAndRemeasured := by
  refine ⟨fun s tag ready => ?_, fun s tag ready safe => ?_⟩
  · intro answer held
    have refused {status : Status} (act : actAcceptSeam s = s.answer status) : answer status :=
      request_unchanged ready rfl act
    have isHeld : s.heldFor .seamDeviation = true ↔ held := heldFor_iff
    refine ⟨fun away => refused (if_pos ?_), fun stands open_ => refused ?_, fun stands shut lost => refused ?_,
      fun stands shut homed => ?_⟩
    · rw [Bool.eq_false_iff.mpr (isHeld.not.mpr away)]
      rfl
    all_goals have act := actAcceptSeam_held (isHeld.mpr stands)
    · exact act.trans (if_pos open_)
    all_goals rw [show s.guardOpen = false from shut, if_neg (by decide)] at act
    · exact act.trans (if_pos (by rw [lost]; rfl))
    · rw [homed, if_neg (by decide)] at act
      have clear := seamClear_continueReadying (s := s.withMarks { s.marks with seam := none }) rfl
      have outbound : (s.withMarks { s.marks with seam := none }).continueReadying.link.outbound = s.link.outbound :=
        blind_outbound.continueReadying _
      generalize (s.withMarks { s.marks with seam := none }).continueReadying = u at act clear outbound
      obtain ⟨notices, grown⟩ := (close_queues (u.queueReply 0x2B tag .ok [] none)).1
      have closed := seamClear_close (s := u.queueReply 0x2B tag .ok [] none) clear
      refine ⟨_, u.digest, notices, request_acted (i := .acceptSeam tag) ready rfl act, closed.1, closed.2, ?_⟩
      rw [← outbound]
      refine grown.symm.trans ?_
      show (u.link.outbound ++ [replyRecord 0x2B tag .ok [] none u]) ++ notices = _
      rw [List.append_assoc]
      rfl
  · intro answer inHold unread
    have ⟨⟨settled, quiet⟩, _⟩ := ready
    have refused {status : Status} (act : actRemeasure s = s.answer status) : answer status :=
      request_unchanged ready rfl act
    refine ⟨fun moving away => refused ((if_neg moving).trans (if_pos ?_)), fun holds open_ => refused ?_,
      fun holds shut lost => refused ?_, fun sp current bandsSafe inside => ?_⟩
    · rw [Bool.eq_false_iff.mpr (heldReadying_iff.not.mpr away)]
      rfl
    · exact (actRemeasure_held holds).trans (if_pos open_)
    · have act := actRemeasure_held holds
      rw [show s.guardOpen = false from shut, if_neg (by decide)] at act
      exact act.trans (if_pos (by rw [lost]; rfl))
    · intro rows
      have span := mapSpan_eq sp Mark.unread s.marks.rows
      have bandCount : s.marks.bands.length = s.marks.rows.length - 1 := eq_of_beq bandsSafe
      refine ⟨fun suspended => ?_, fun rect holds shut homed empty going fixed some_ clipped => ?_⟩
      · have act := actRemeasure_suspended suspended
        rw [unreadWindow_eq current] at act
        refine ⟨(s.marks.respan sp Mark.unread).bands, (request_answered ready rfl act settled quiet).trans ?_,
          fun i least most => bands_respan_inside _ (by omega) least most,
          fun i outside => bands_respan_outside _ outside⟩
        show _ = Host.Outcome.next (State.queueReply 0x2C tag .ok [] none { s with marks := _ })
        rw [show rows = mapSpan sp Mark.unread s.marks.rows from span.symm]
        rfl
      · have exists_ : ∃ r, s.marks.rows[sp.first]? = some r := ⟨_, List.getElem?_eq_getElem (by omega)⟩
        obtain ⟨r, exists_⟩ := exists_
        let v := s.withMarks { s.marks.respan sp Mark.unread with flight := none }
        have first : v.marks.rows[sp.first]? = some ⟨r.left.unread, r.right.unread⟩ :=
          getElem?_mapSpan_inside (Nat.le_refl _) some_ exists_ Mark.unread
        have same := unread_atContinuation r.left
        have searches := continueReadying_searches (s := v) (rect := rect) fixed some_ first (by rw [same]; rfl) going
          empty (by rw [same]; exact clipped)
        have act := actRemeasure_held holds
        rw [show s.guardOpen = false from shut, if_neg (by decide), homed, if_neg (by decide), unreadWindow_eq current,
          searches, same] at act
        have unreadRows : v.marks.continued.rows = rows := by
          rw [continued_of_span (show v.marks.span = some sp from fixed)]
          exact (mapSpan_unread_continued sp s.marks.rows).trans span
        have seam : v.marks.continued.seam = s.marks.seam := by
          rw [continued_of_span (show v.marks.span = some sp from fixed)]
          rfl
        have idle := not_executing_of_empty (s := s) settled empty
        refine ⟨_, _, request_searches (i := .remeasure tag) ready rfl act idle shut homed clipped quiet, rfl, rfl, rfl,
          (seam_tried ..).trans seam, rfl, rfl, rfl, fun i other => ?_, rfl⟩
        have present : v.marks.continued.rows[sp.first]? = some ⟨r.left.unread, r.right.unread⟩ := by
          rw [unreadRows]
          exact (congrArg (fun l => l[sp.first]?) span.symm).trans first
        show ((v.marks.continued.setMark sp.first .left _).rows)[i]? = rows[i]?
        rw [rows_setMark present, unreadRows]
        exact List.getElem?_set_ne (Ne.symm other)

end Sys2Proof.Machine

/-! A FEED placed and taken (R93, R115, R127), and the feed of a run toward a window with nothing to cut (R96, R100). -/

namespace Sys2Proof.Machine

/-! ### A FEED placed and taken -/

/-- What the settled values of a plain state are. -/
theorem plain_same {s : State} (plain : s.Plain) : ({ s with
    cycle := { s.cycle with hold := none, taken := none, settleTimer := none }
    bed := { s.bed with beacon := false } } : State) = s := by
  obtain ⟨hold, taken, timer, beacon⟩ := plain
  rw [← hold, ← taken, ← timer, ← beacon]

/-- FEEDING with a FEED executing: what a FEED placed in the empty queue comes to at its take (R93, R127). -/
def State.feeds (s : State) (distance : Nat) (job : FeedJob) : State :=
  { s with
    cycle := { s.cycle with
      state := .feeding, hold := none, taken := none, settleTimer := none, feedJob := some job }
    motion := { s.motion with
      queue := [.feed distance], executing := true, speed := none, kiss := .raised, thru := .raised
      commanded := some distance, encoder := 0, guardTimer := some s.motion.params.feedGuardTime }
    bed := { s.bed with
      toolKiss := none, toolThru := none, feedDrive := true, beacon := false, zones := Table.fill 4 false } }

/-- A FEED placed in the empty queue, before its take. -/
def State.feedPlaced (s : State) (distance : Nat) (job : FeedJob) : State :=
  { s with
    cycle := { s.cycle with
      state := .feeding, hold := none, taken := none, settleTimer := none, feedJob := some job }
    motion := { s.motion with queue := [.feed distance] }
    bed := { s.bed with beacon := false, zones := Table.fill 4 false } }

theorem placeFeed_eq {s : State} (empty : s.motion.queue = []) (distance : Nat) (job : FeedJob) :
    s.placeFeed distance job = s.feedPlaced distance job := by
  unfold State.placeFeed
  exact place_empty _ empty

section
variable {s : State} (shut : s.guardOpen = false)
include shut

theorem takeEntry_feed (supplied : s.mediaEnd = false) (d : Nat) : s.takeEntry (.feed d) = s.startFeed d := by
  rw [takeEntry_passes shut rfl]
  dsimp only
  rw [supplied, if_neg (by decide)]

end

/-- A request that places a FEED in the empty queue of an idle motion unit (R115, R127). -/
theorem request_feeds {i : Instr} {k tag : Byte} {act : State → Acted} {s u : State} {distance : Nat} {job : FeedJob}
    (ready : s.ready) (wf : i.wellFormed = true) (acted : act s = (u.placeFeed distance job).done)
    (empty : u.motion.queue = []) (idle : u.motion.executing = false) (shut : u.guardOpen = false)
    (supplied : u.mediaEnd = false) (quiet : u.link.formed = []) :
    request i (serve k tag act) s = .next ((u.feeds distance job).queueReply k tag .ok [] none) := by
  rw [placeFeed_eq empty] at acted
  refine (request_acted ready wf acted).trans (congrArg Host.Outcome.next ?_)
  have closes := close_takes (t := (u.feedPlaced distance job).queueReply k tag .ok [] none) (e := .feed distance) idle
    rfl nofun
  refine closes.trans ?_
  rw [takeEntry_feed (s := (u.feedPlaced distance job).queueReply k tag .ok [] none) shut supplied]
  exact flush_quiet (s := (u.feeds distance job).queueReply k tag .ok [] none) quiet

/-- FEEDING from a plain state (R93). -/
theorem feeds_plain {s : State} (plain : s.Plain) (distance : Nat) (job : FeedJob) : s.feeds distance job = { s with
    cycle := { s.cycle with state := .feeding, feedJob := some job }
    motion := { s.motion with
      queue := [.feed distance], executing := true, speed := none, kiss := .raised, thru := .raised
      commanded := some distance, encoder := 0, guardTimer := some s.motion.params.feedGuardTime }
    bed := { s.bed with
      toolKiss := none, toolThru := none, feedDrive := true, zones := Table.fill 4 false } } := by
  rw [← plain_same plain]
  rfl

/-! ### A window with nothing to cut -/

/-- A panel committed for the cut in window 2 alone. -/
def Panel.inWindowTwo : Panel :=
  { Panel.emptyRecord with
    state := .placed, lock := .committed, bbox := some ⟨0, 0, 30000, 30000⟩, placement := some ⟨5000, 205000, .r0⟩ }

/-- A run feed toward window 1, which no panel meets, has run its distance; a panel is still to cut in window 2. -/
def State.feedToEmptyWindow : State :=
  { State.reset with
    store := PanelStore.reset.setPanel 0 Panel.inWindowTwo
    marks := { MarkUnit.reset with rows := List.replicate 6 ⟨Mark.fresh, Mark.fresh⟩ }
    cycle := { CycleControl.reset with state := .feeding, runActive := true, feedJob := some ⟨.run, 1⟩ }
    motion := { MotionUnit.reset with
      queue := [.feed 100000], executing := true, commanded := some 100000, encoder := 100000, guardTimer := some 300
      homed := true, head := some ⟨0, 0⟩ }
    bed := { (BedIO.reset 0) with feedDrive := true } }

theorem feedToEmptyWindow_atRest : State.feedToEmptyWindow.atRest := ⟨rfl, rfl⟩

/-- Window 1 has no item, so the run feeds on: the close takes that FEED and the drive runs again. -/
theorem feedToEmptyWindow_feeds : ∃ t, exec .feedDriveDone State.feedToEmptyWindow = .next t ∧ t.bed.feedDrive = true :=
  ⟨_, rfl, by decide +kernel⟩

/-- Refutes O52: the clause that a run feed ends with FEED_DRIVE off takes windows of no item too, and there the run
goes on at once with the next feed. -/
theorem not_feedRunsAndEnds : ¬ Obligations.FeedRunsAndEnds := by
  rintro ⟨_, _, _, delivers, _⟩
  obtain ⟨t, ends, _, off, _⟩ := delivers State.feedToEmptyWindow 100000 ⟨.run, 1⟩ feedToEmptyWindow_atRest
    (by decide +kernel) rfl rfl rfl (by decide) (by decide) (by decide +kernel) (by decide)
  obtain ⟨u, same, on⟩ := feedToEmptyWindow_feeds
  obtain rfl := Host.Outcome.next.inj (ends.symm.trans same)
  exact nomatch on.symm.trans off

end Sys2Proof.Machine

/-! The entry of a window: its worklist re-entered or built, the opening, and the settle (R55, R75, R93, R96, R104). -/

namespace Sys2Proof.Machine

/-! ### A settle begun -/

/-- MEASURING in its settle phase, the timer running, the window's zones on (R93). -/
def State.settling (s : State) : State :=
  { s with
    cycle := { s.cycle with
      state := .measuring, hold := none, taken := none, phase := .settle, settleTimer := some s.cycle.vacSettle }
    bed := { s.bed with beacon := false, zones := s.bed.zones.map fun z on => on || windowZone s.nest.params z } }

theorem beginSettle_eq {s : State} (timed : 0 < s.cycle.vacSettle) : s.beginSettle = s.settling := by
  unfold State.beginSettle
  exact if_neg (Nat.pos_iff_ne_zero.mp timed)

theorem settling_plain {s : State} (plain : s.Plain) : s.settling = { s with
    cycle := { s.cycle with state := .measuring, phase := .settle, settleTimer := some s.cycle.vacSettle }
    bed := { s.bed with zones := s.bed.zones.map fun z on => on || windowZone s.nest.params z } } := by
  rw [← plain_same plain]
  rfl

/-! ### The window entered -/

/-- The window at the pointer opened with a worklist (R55, R75). -/
def State.entered (s : State) (l : Option Worklist) (advance : Option Int) : State :=
  { s with
    plan := { s.plan with worklist := l }
    marks := s.marks.openWindow s.cycle.pointer s.windowSpan advance }

section
variable {s : State} {w : Worklist} {count : Nat} {n : OutRecord}
  (plan : s.planEnter = ((s.withPlan { s.plan with worklist := some w }).emit n, .items count))
include plan

theorem enterWindow_settles (advance : Option Int) (quiet : s.suspendPending = false) (timed : 0 < s.cycle.vacSettle) :
    s.enterWindow advance = (s.entered (some w) advance).settling.emit n := by
  have settles : ((s.entered (some w) advance).emit n).beginSettle = (s.entered (some w) advance).settling.emit n :=
    beginSettle_eq (s := (s.entered (some w) advance).emit n) timed
  unfold State.enterWindow
  rw [plan]
  refine Eq.trans ?_ settles
  exact if_neg (by
    show ¬s.suspendPending = true
    rw [quiet]
    decide)

theorem enterWindow_suspends (advance : Option Int) (pending : s.suspendPending = true) :
    s.enterWindow advance = ((s.entered (some w) advance).emit n).windowZonesOn.takeSuspension .settle := by
  unfold State.enterWindow
  rw [plan]
  exact if_pos pending

end

theorem enterWindow_full {s : State} {count : Nat}
    (plan : s.planEnter = (s.withPlan { s.plan with worklist := none }, .full count)) (advance : Option Int) :
    s.enterWindow advance = (s.entered none advance).heldFull count := by
  unfold State.enterWindow
  rw [plan]
  rfl

/-! ### The worklist built or re-entered -/

section
variable {s : State} (unplanned : s.plan.worklist = none)
include unplanned

theorem planEnter_unplanned : s.planEnter = s.buildWorklist := by
  unfold State.planEnter
  rw [unplanned]

theorem planEnter_full (many : 256 < (s.builtItems s.cycle.pointer).length) : s.planEnter =
    (s.withPlan { s.plan with worklist := none }, .full (s.builtItems s.cycle.pointer).length) :=
  (planEnter_unplanned unplanned).trans (buildWorklist_full many)

theorem planEnter_fits (few : (s.builtItems s.cycle.pointer).length ≤ 256) : s.planEnter =
    ((s.withPlan { s.plan with worklist := some (s.builtWorklist s.cycle.pointer) }).emit
        (windowStartNotice s.cycle.pointer (s.builtItems s.cycle.pointer).length),
      if s.builtItems s.cycle.pointer = [] then .empty (s.builtItems s.cycle.pointer).length
      else .items (s.builtItems s.cycle.pointer).length) := by
  rw [planEnter_unplanned unplanned, buildWorklist_fits few, outcome_builtWorklist]

theorem planEnter_items (some_ : s.builtItems s.cycle.pointer ≠ [])
    (few : (s.builtItems s.cycle.pointer).length ≤ 256) : s.planEnter =
      ((s.withPlan { s.plan with worklist := some (s.builtWorklist s.cycle.pointer) }).emit
        (windowStartNotice s.cycle.pointer (s.builtItems s.cycle.pointer).length),
        .items (s.builtItems s.cycle.pointer).length) := by
  rw [planEnter_fits unplanned few, if_neg some_]

end

/-- A worklist of the window at the pointer with an item still to cut is entered again (R75). -/
theorem planEnter_again {s : State} {w : Worklist} (planned : s.plan.worklist = some w)
    (here : w.window = s.cycle.pointer) (live : ∃ it ∈ w.items, it.state = .pending ∨ it.state = .active) :
    s.planEnter = ((s.withPlan { s.plan with
      worklist := some { w.rewind with startPassed := none, stopped := false } }).emit
        (windowStartNotice w.window w.items.length), .items w.items.length) := by
  obtain ⟨it, member, state⟩ := live
  have any : w.items.any Item.live = true := List.any_eq_true.mpr ⟨it, member, live_iff.mpr state⟩
  unfold State.planEnter
  rw [planned]
  dsimp only
  rw [if_pos here]
  refine congrArg (Prod.mk _) ?_
  exact if_pos any

end Sys2Proof.Machine

/-! The planner issuing with a travel due, and the readying of a window whose marks stand (R59, R62, R83, R107). -/

namespace Sys2Proof.Machine

/-! ### The cursor -/

theorem firstLiveFrom_eq_some_iff {l : List Item} {n k : Nat} : firstLiveFrom n l = some k ↔
    ∃ i, k = n + i ∧ (∃ a, l[i]? = some a ∧ a.live = true) ∧ ∀ j a, j < i → l[j]? = some a → a.live = false := by
  induction l generalizing n with
  | nil => exact ⟨fun h => (nomatch h), fun ⟨_, _, ⟨_, h, _⟩, _⟩ => (nomatch h)⟩
  | cons it l ih =>
    cases live : it.live with
    | true =>
      rw [firstLiveFrom_live live]
      constructor
      · intro h
        exact ⟨0, (Option.some.inj h).symm, ⟨it, rfl, live⟩, fun j a less => absurd less (Nat.not_lt_zero j)⟩
      · rintro ⟨i, rfl, _, before⟩
        cases i with
        | zero => rfl
        | succ i => exact nomatch live.symm.trans (before 0 it (Nat.succ_pos i) rfl)
    | false =>
      unfold firstLiveFrom
      rw [if_neg (by rw [live]; decide), ih]
      constructor
      · rintro ⟨i, rfl, here, before⟩
        refine ⟨i + 1, by omega, here, fun j a less at_ => ?_⟩
        cases j with
        | zero => exact Option.some.inj at_ ▸ live
        | succ j => exact before j a (by omega) at_
      · rintro ⟨i, rfl, here, before⟩
        cases i with
        | zero =>
          obtain ⟨a, at_, alive⟩ := here
          rw [← Option.some.inj at_, live] at alive
          exact nomatch alive
        | succ i => exact ⟨i, by omega, here, fun j a less at_ => before (j + 1) a (by omega) at_⟩

theorem cursorIndex_eq_some_iff {w : Worklist} {i : Nat} : w.cursorIndex = some i ↔
    (∃ a, w.items[i]? = some a ∧ a.live = true) ∧ ∀ j a, j < i → w.items[j]? = some a → a.live = false := by
  unfold Worklist.cursorIndex
  rw [firstLiveFrom_eq_some_iff]
  exact ⟨fun ⟨k, same, h⟩ => by rw [same, Nat.zero_add]; exact h, fun h => ⟨i, (Nat.zero_add i).symm, h⟩⟩

theorem live_of_cursor {w : Worklist} {i : Nat} {it : Item} (cursor : w.cursorIndex = some i)
    (item : w.items[i]? = some it) : it.live = true := by
  obtain ⟨⟨a, at_, live⟩, _⟩ := cursorIndex_eq_some_iff.mp cursor
  rw [← Option.some.inj (at_.symm.trans item)]
  exact live

/-! ### A travel due -/

theorem passDone_live {w : Worklist} {i : Nat} {it : Item} (pointed : w.issue.item = some i)
    (item : w.items[i]? = some it) (live : it.live = true) : w.passDone = w := by
  unfold Worklist.passDone
  rw [pointed]
  dsimp only
  rw [item]
  exact if_pos live

/-- One issuing step at a live item. -/
theorem issueOne_live {s : State} {w : Worklist} {i : Nat} {it : Item} (planned : s.plan.worklist = some w)
    (pointed : w.issue.item = some i) (item : w.items[i]? = some it) (live : it.live = true) :
    s.issueOne = s.issueItem w i it := by
  unfold State.issueOne
  rw [planned]
  dsimp only
  rw [passDone_live pointed item live, pointed]
  dsimp only
  rw [item]

/-- The worklist behind a travel placed at its cursor item (R83, R84). -/
def Worklist.travelled (w : Worklist) (i : Nat) (it : Item) : Worklist :=
  w.reissued ⟨some i, it.passDone, it.segDone, false, false⟩ (if w.startPassed = some i then none else w.startPassed)
    w.stopped

/-- The entry behind the queue. -/
def State.behind (s : State) (e : Entry) : State := s.withMotion { s.motion with queue := s.motion.queue ++ [e] }

theorem place_room {s : State} (room : s.motion.queue.length < 32) (e : Entry) : s.place e = s.behind e := if_pos room

/-- The TRAVEL to a cursor point whose item start needs no report (R83, R84). -/
theorem issueItem_travel {s : State} {w : Worklist} {i : Nat} {it : Item} {target : BedPos}
    (pointed : w.issue = ⟨some i, it.passDone, it.segDone, true, false⟩)
    (known : it.passDone ≠ 0 ∨ it.segDone ≠ 0 ∨ w.startPassed = some i)
    (answers : s.correct (s.itemPoint w it (it.pointAfter it.passDone it.segDone)) = some target)
    (room : s.motion.queue.length < 32) : s.issueItem w i it =
      ((s.withPlan { s.plan with worklist := some (w.travelled i it) }).behind (.travel .planner target), .placed) := by
  have unreported : w.reportDue i it = false := by
    unfold Worklist.reportDue
    rcases known with h | h | h <;> simp [h]
  have due : w.issue.travelDue = true := by rw [pointed]
  have travels (v : Worklist) (pass : v.issue.pass = it.passDone) (segs : v.issue.issued = it.segDone)
      (same : s.itemPoint v it = s.itemPoint w it) : s.issueTravel v it =
        ((s.withPlan { s.plan with
          worklist := some { v with issue := { v.issue with travelDue := false, reported := false } } }).behind
            (.travel .planner target), .placed) := by
    unfold State.issueTravel
    rw [pass, segs, same, answers]
    refine congrArg (fun u => (u, IssueStop.placed)) ?_
    exact if_pos room
  unfold State.issueItem
  rw [if_pos due, unreported, if_neg (by decide)]
  unfold Worklist.travelled
  by_cases passed : w.startPassed = some i
  · simp only [if_pos passed]
    rw [travels { w with startPassed := none, issue := { w.issue with reported := true } } (by rw [pointed])
      (by rw [pointed]) rfl]
    rw [pointed]
    rfl
  · simp only [if_neg passed]
    rw [travels w (by rw [pointed]) (by rw [pointed]) rfl]
    rw [pointed]
    rfl

/-- Issuing where an entry is placed first: the rest follows behind it (R83). -/
theorem issue_places_first {s t : State} {w : Worklist} (going : s.cycle.stopPending = false)
    (planned : s.plan.worklist = some w) (free : w.stopped = false) (room : s.motion.queue.length < 32)
    (one : s.issueOne = (t, .placed)) : s.issue = t.issueLoop (31 - s.motion.queue.length) := by
  unfold State.issue
  rw [going, if_neg (by decide), planned]
  dsimp only
  rw [free, if_neg (by decide)]
  have places : s.motion.freePlaces = (31 - s.motion.queue.length) + 1 := by
    unfold MotionUnit.freePlaces Config.motionPlaces
    omega
  rw [places]
  conv_lhs => unfold State.issueLoop
  rw [one]

theorem windowSpent_issued {s t : State} (issued : s.Issued t) : t.windowSpent = s.windowSpent := by
  obtain ⟨_, _, _, plan⟩ := issued.plan
  unfold State.windowSpent
  rw [plan]
  cases s.plan.worklist <;> rfl

theorem windowSpent_live {s : State} {w : Worklist} {i : Nat} {it : Item} (planned : s.plan.worklist = some w)
    (item : w.items[i]? = some it) (live : it.live = true) : s.windowSpent = false := by
  have any : w.items.any Item.live = true := List.any_eq_true.mpr ⟨it, List.mem_of_getElem? item, live⟩
  unfold State.windowSpent
  rw [planned]
  dsimp only
  rw [any, Bool.not_true, Bool.and_false]

theorem suspendIfDrained_queued {s : State} (queued : s.plannerQueued = true) : s.suspendIfDrained = s := by
  refine if_neg ?_
  rw [queued, Bool.not_true, Bool.and_false]
  decide

/-- The planner issues at READY or at a resumption with a travel due: the TRAVEL stands behind the queue (R83, R107). -/
theorem issueWith_travels {s : State} {w : Worklist} {target : BedPos} (f : State → State)
    (planned : s.plan.worklist = some w) (due : s.travelDueTo w target) (going : s.cycle.stopPending = false)
    (room : s.motion.queue.length < 32) : ∃ t, s.issueWith f = t ∧ s.Issued t ∧
      ∃ q, t.motion.queue = s.motion.queue ++ .travel .planner target :: q := by
  obtain ⟨i, it, cursor, item, pointed, known, answers, _⟩ := due
  have live := live_of_cursor cursor item
  let v : Worklist := { w with stopped := false }
  have planned' : s.unstopped.plan.worklist = some v := by
    show s.plan.worklist.map _ = _
    rw [planned]
    rfl
  let placed := (s.unstopped.withPlan { s.plan with worklist := some (v.travelled i it) }).behind
    (.travel .planner target)
  have one : s.unstopped.issueOne = (placed, .placed) := by
    rw [issueOne_live (w := v) planned' (by show w.issue.item = _; rw [pointed]) item live,
      issueItem_travel (s := s.unstopped) (w := v) pointed known answers room]
    rfl
  have first : s.unstopped.Issued placed := by
    have issued := issued_issueOne s.unstopped
    rw [one] at issued
    exact issued
  have loops : s.unstopped.issue = placed.issueLoop (31 - s.motion.queue.length) :=
    issue_places_first (s := s.unstopped) going planned' rfl room one
  have later := issued_issueLoop (31 - s.motion.queue.length) placed
  have issued : s.Issued (placed.issueLoop (31 - s.motion.queue.length)).1 :=
    (issued_unstopped s).trans (first.trans later)
  obtain ⟨q, motion⟩ := later.motion
  have queue : (placed.issueLoop (31 - s.motion.queue.length)).1.motion.queue =
      s.motion.queue ++ .travel .planner target :: q := by
    rw [motion]
    show (s.motion.queue ++ [_]) ++ q = _
    rw [List.append_assoc]
    rfl
  have unspent := (windowSpent_issued issued).trans (windowSpent_live planned item live)
  have queued : (placed.issueLoop (31 - s.motion.queue.length)).1.plannerQueued = true := by
    unfold State.plannerQueued
    rw [queue, List.any_append, List.any_cons]
    simp [Entry.producer]
  refine ⟨_, ?_, issued, q, queue⟩
  rw [issueWith_eq, loops]
  show (if (placed.issueLoop (31 - s.motion.queue.length)).1.windowSpent then _ else _) = _
  rw [unspent, if_neg (by decide), queued, if_neg (by simp)]
  rw [suspendIfDrained_queued queued, ite_self]

/-! ### A readying whose marks all stand -/

theorem withRows_same (mu : MarkUnit) : mu.withRows mu.rows = mu := by
  unfold MarkUnit.withRows
  have bands : (mu.bands.mapIdx fun i g =>
      if readingChanged mu.rows mu.rows i || readingChanged mu.rows mu.rows (i + 1) then .unchecked else g) =
        mu.bands := by
    refine List.ext_getElem? fun i => ?_
    rw [List.getElem?_mapIdx, readingChanged_same rfl, readingChanged_same rfl]
    cases mu.bands[i]? <;> rfl
  rw [bands]

/-- Every mark of the span is READ or SET. -/
def MarkUnit.standsIn (mu : MarkUnit) (sp : Span) : Prop :=
  ∀ i side m, sp.first ≤ i → i ≤ sp.last → mu.mark i side = some m → m.held = true

theorem held_iff {m : Mark} : m.held = true ↔ m.state = .read ∨ m.state = .set := by
  unfold Mark.held
  rw [Bool.or_eq_true, decide_eq_true_eq, decide_eq_true_eq]

theorem usable_iff {mu : MarkUnit} {i : Nat} : mu.usable i = true ↔ mu.bands[i]? = some .ok ∧
    ∃ a b, mu.rows[i]? = some a ∧ mu.rows[i + 1]? = some b ∧
      a.left.held = true ∧ a.right.held = true ∧ b.left.held = true ∧ b.right.held = true := by
  unfold MarkUnit.usable MarkUnit.bandMarks
  cases band : mu.bands[i]? with
  | none => simp
  | some g =>
    cases lower : mu.rows[i]? with
    | none => simp
    | some a =>
      cases upper : mu.rows[i + 1]? with
      | none => simp
      | some b => cases g <;> simp [and_assoc]

theorem standsIn_of_usable {mu : MarkUnit} {sp : Span} (some_ : sp.first < sp.last)
    (usable : ∀ i, sp.first ≤ i → i < sp.last → mu.usable i = true) : mu.standsIn sp := by
  have row {i : Nat} (least : sp.first ≤ i) (most : i ≤ sp.last) {r : MarkRow} (exists_ : mu.rows[i]? = some r) :
      r.left.held = true ∧ r.right.held = true := by
    by_cases last : i = sp.last
    · obtain ⟨_, _, b, _, upper, _, _, left, right⟩ := usable_iff.mp (usable (i - 1) (by omega) (by omega))
      rw [show i - 1 + 1 = i by omega, exists_] at upper
      rw [Option.some.inj upper]
      exact ⟨left, right⟩
    · obtain ⟨_, a, _, lower, _, left, right, _⟩ := usable_iff.mp (usable i least (by omega))
      rw [exists_] at lower
      rw [Option.some.inj lower]
      exact ⟨left, right⟩
  intro i side m least most mark
  unfold MarkUnit.mark at mark
  obtain ⟨r, exists_, rfl⟩ := Option.map_eq_some_iff.mp mark
  obtain ⟨left, right⟩ := row least most exists_
  cases side with
  | left => exact left
  | right => exact right

theorem firstIn_eq_none {mu : MarkUnit} {sp : Span} (fixed : mu.span = some sp) {st : MarkState}
    (none_ : ∀ i side m, sp.first ≤ i → i ≤ sp.last → mu.mark i side = some m → m.state ≠ st) :
    mu.firstIn st = none := by
  unfold MarkUnit.firstIn
  rw [fixed]
  refine List.find?_eq_none.mpr fun q member test => ?_
  obtain ⟨least, most⟩ := mem_spanMarks.mp member
  obtain ⟨m, mark, state⟩ := Option.map_eq_some_iff.mp (of_decide_eq_true test)
  exact none_ q.1 q.2 m least most mark state

section
variable {mu : MarkUnit} {sp : Span} (fixed : mu.span = some sp) (stands : mu.standsIn sp)
include fixed stands

theorem firstIn_standing {st : MarkState} (other : st = .unread ∨ st = .missed) : mu.firstIn st = none := by
  refine firstIn_eq_none fixed fun i side m least most mark state => ?_
  have held := held_iff.mp (stands i side m least most mark)
  rw [state] at held
  rcases other with rfl | rfl <;> exact absurd held (by decide)

/-- A continuation leaves marks that stand (R59). -/
theorem continued_standing : mu.continued = mu := by
  have same : mapSpan sp Mark.atContinuation mu.rows = mu.rows := by
    refine List.ext_getElem? fun i => ?_
    rw [mapSpan_eq, List.getElem?_mapIdx]
    cases exists_ : mu.rows[i]? with
    | none => rfl
    | some r =>
      refine congrArg some ?_
      have kept {side : Side} (least : sp.first ≤ i) (most : i ≤ sp.last) :
          (r.get side).atContinuation = r.get side := by
        have held := held_iff.mp (stands i side _ least most (mark_of_row exists_ side))
        refine if_neg fun missed => ?_
        rw [missed] at held
        exact absurd held (by decide)
      split
      · rename_i inside
        exact congrArg₂ MarkRow.mk (kept (side := .left) inside.1 inside.2) (kept (side := .right) inside.1 inside.2)
      · rfl
  rw [continued_of_span fixed, same, withRows_same]

end

theorem spanUsable_of {mu : MarkUnit} {sp : Span} (fixed : mu.span = some sp)
    (usable : ∀ i, sp.first ≤ i → i < sp.last → mu.usable i = true) : mu.spanUsable = true := by
  unfold MarkUnit.spanUsable
  rw [fixed]
  refine List.all_eq_true.mpr fun d member => ?_
  have below := List.mem_range.mp member
  exact usable _ (by omega) (by omega)

/-- CUTTING, from a readying (R62). -/
def State.cutting (s : State) : State := s.setCycle .cutting

/-- The readying of a window whose bands are all usable, no seam pending, goes on to the cut (R59, R62, R107). -/
theorem continueReadying_ready {s : State} {sp : Span} (fixed : s.marks.span = some sp) (some_ : sp.first < sp.last)
    (usable : ∀ i, sp.first ≤ i → i < sp.last → s.marks.usable i = true) (settledSeam : s.marks.seam = none)
    (going : s.cycle.stopPending = false) : s.continueReadying = s.readied.cutting.issueNow := by
  have stands := standsIn_of_usable some_ usable
  have searches : s.continueReadying = s.readied.searchNow := by
    unfold State.continueReadying
    rw [continued_standing fixed stands]
    rfl
  have none_ : s.readied.marks.firstIn .unread = none := firstIn_standing fixed stands (.inl rfl)
  have missed : s.readied.marks.firstIn .missed = none := firstIn_standing fixed stands (.inr rfl)
  rw [searches]
  unfold State.searchNow State.search State.searchFrom
  have readying : s.readied.inReadying = true := inReadying_iff.mpr ⟨rfl, rfl⟩
  rw [if_neg (by rw [readying, show s.readied.cycle.stopPending = false from going]; decide), none_]
  dsimp only
  unfold State.checks
  rw [missed]
  dsimp only
  rw [if_pos]
  · rfl
  · rw [show s.readied.marks.seam = none from settledSeam, show s.readied.marks.spanUsable = true from
      spanUsable_of fixed usable]
    rfl

end Sys2Proof.Machine

/-! RESUME (R107 to R109). -/

namespace Sys2Proof.Machine

/-! ### What a resumption does -/

section
variable {s : State}

theorem actResume_running (running : s.cycle.state = .measuring ∨ s.cycle.state = .cutting ∨ s.cycle.state = .feeding) :
    actResume s = if s.suspendPending then s.cancelSuspension.done else s.answer .refusedState := if_pos running

theorem actResume_refused (elsewhere : s.cycle.state = .idle ∨ s.cycle.state = .homing ∨ s.cycle.state = .halted ∨
    s.cycle.state = .testcut) : actResume s = s.answer .refusedState := by
  unfold actResume
  rcases elsewhere with h | h | h | h <;> rw [h] <;> rfl

/-- The guard and home checks of R107. -/
theorem actResume_waiting (waiting : s.cycle.state = .suspended ∨ s.cycle.state = .held) : actResume s =
    if s.guardOpen then s.answer .guardOpen
    else if !s.motion.homed then s.answer .notHomed
    else if s.cycle.state = .suspended then s.resumeSuspended.done
    else s.resumeHeld.done := by
  have stands : ¬(s.cycle.state = .measuring ∨ s.cycle.state = .cutting ∨ s.cycle.state = .feeding) := by
    rcases waiting with h | h <;> rw [h] <;> decide
  exact (if_neg stands).trans (if_pos waiting)

theorem cancelSuspension_going (free : s.stoppedAtItem = false) : s.cancelSuspension = s.clearReasons := by
  unfold State.cancelSuspension
  rw [free, Bool.false_and, if_neg (by decide)]

theorem stoppedAtItem_of {w : Worklist} (planned : s.plan.worklist = some w) : s.stoppedAtItem = w.stopped := by
  unfold State.stoppedAtItem
  rw [planned]

theorem cancelSuspension_stopped (stopped : s.stoppedAtItem = true) (cutting : s.cycle.state = .cutting) :
    s.cancelSuspension = s.clearReasons.issueNow := by
  unfold State.cancelSuspension
  rw [stopped, cutting]
  exact if_pos rfl

variable (shut : s.guardOpen = false) (homed : s.motion.homed = true)
include shut homed

theorem actResume_suspended {taken : Taken} (suspended : s.cycle.state = .suspended)
    (kept : s.cycle.taken = some taken) : actResume s = match taken.resume with
      | .settle => s.beginSettle.done
      | .continue => s.continueReadying.done
      | .feed => s.runFeed.done := by
  rw [actResume_passes (.inl suspended) shut homed, if_pos suspended]
  unfold State.resumeSuspended
  rw [kept]
  dsimp only
  cases taken.resume <;> rfl

theorem actResume_held (held : s.cycle.state = .held) : actResume s = s.resumeHeld.done := by
  rw [actResume_passes (.inr held) shut homed, if_neg (by rw [held]; decide)]

/-- The readying is continued from a hold of the readying and from a suspension taken there (R107, R108). -/
theorem actResume_readying (safe : s.cycleSafe = true)
    (readying : s.cycle.hold = some .markMissed ∨ s.cycle.hold = some .markGeometry ∨
      s.cycle.hold = some .seamDeviation ∨ ∃ taken, s.cycle.taken = some taken ∧ taken.resume = .continue) :
    actResume s = s.continueReadying.done := by
  have held {r : HoldReason} (hold : s.cycle.hold = some r) : actResume s = s.resumeHeld.done := by
    have state := hold_isSome_of_safe safe
    rw [hold] at state
    exact actResume_held shut homed (eq_of_beq state.symm)
  rcases readying with hold | hold | hold | ⟨taken, kept, resume⟩
  · rw [held hold]
    unfold State.resumeHeld
    rw [hold]
  · rw [held hold]
    unfold State.resumeHeld
    rw [hold]
  · rw [held hold]
    unfold State.resumeHeld
    rw [hold]
  · have state := taken_isSome_of_safe safe
    rw [kept] at state
    rw [actResume_suspended shut homed (eq_of_beq state.symm) kept, resume]

end

/-! ### Requests that place a TRAVEL -/

/-- A request that leaves a TRAVEL at the head of the queue of an idle motion unit, whatever notices it formed. -/
theorem request_travels {i : Instr} {k tag : Byte} {act : State → Acted} {s u : State} {p : Producer} {target : BedPos}
    {rest : List Entry} (ready : s.ready) (wf : i.wellFormed = true) (acted : act s = u.done)
    (queue : u.motion.queue = .travel p target :: rest) (idle : u.motion.executing = false)
    (shut : u.guardOpen = false) (homed : u.motion.homed = true) (onBed : target.onBed = true) :
    ∃ t, request i (serve k tag act) s = .next t ∧ t.unitsOf = u.travels.unitsOf := by
  have closes := close_takes (t := u.queueReply k tag .ok [] none) (e := .travel p target) (rest := rest) idle queue
    nofun
  rw [takeEntry_travel (t := u.queueReply k tag .ok [] none) shut homed onBed] at closes
  exact ⟨_, (request_acted ready wf acted).trans (congrArg Host.Outcome.next closes), rfl⟩

/-- A mark away from the one tried. -/
theorem mark_tried_other {mu : MarkUnit} {row i : Nat} {side other : Side} {m : Mark} {rect : Rect}
    (apart : i ≠ row ∨ (side = .left ∧ other = .right)) :
    (mu.tried row side m rect).mark i other = mu.mark i other := by
  show (mu.setMark row side _).mark i other = _
  unfold MarkUnit.setMark
  split
  · rename_i r exists_
    show ((mu.rows.set row (r.set side _))[i]?).map (·.get other) = (mu.rows[i]?).map (·.get other)
    by_cases same : i = row
    · subst same
      obtain ⟨rfl, rfl⟩ := apart.resolve_left (fun h => h rfl)
      have inside : i < mu.rows.length := (List.getElem?_eq_some_iff.mp exists_).1
      rw [List.getElem?_set_self inside, exists_]
      rfl
    · rw [List.getElem?_set_ne (Ne.symm same)]
  · rfl

theorem mark_continued {mu : MarkUnit} {sp : Span} (fixed : mu.span = some sp) {i : Nat} {side : Side} {m : Mark}
    (mark : mu.mark i side = some m) : mu.continued.mark i side =
      some (if sp.first ≤ i ∧ i ≤ sp.last ∧ m.state = .missed then { m with state := .unread, attempts := 0 }
        else m) := by
  obtain ⟨r, exists_, rfl⟩ := Option.map_eq_some_iff.mp mark
  rw [continued_of_span fixed]
  show ((mapSpan sp Mark.atContinuation mu.rows)[i]?).map (·.get side) = _
  rw [mapSpan_eq, List.getElem?_mapIdx, exists_]
  refine congrArg some ?_
  by_cases inside : sp.first ≤ i ∧ i ≤ sp.last
  · simp only [inside, true_and, and_self, if_true]
    cases side <;> rfl
  · dsimp only
    rw [if_neg inside, if_neg (fun h => inside ⟨h.1, h.2.1⟩)]

/-! ### Going on from a suspension -/

section
variable {s : State}

theorem settling_unheld (hold : s.cycle.hold = none) (beacon : s.bed.beacon = false) : s.settling = { s with
    cycle := { s.cycle with
      state := .measuring, taken := none, phase := .settle, settleTimer := some s.cycle.vacSettle }
    bed := { s.bed with zones := s.bed.zones.map fun z on => on || windowZone s.nest.params z } } := by
  unfold State.settling
  rw [← hold, ← beacon]

theorem feeds_unheld (hold : s.cycle.hold = none) (timer : s.cycle.settleTimer = none) (beacon : s.bed.beacon = false)
    (distance : Nat) (job : FeedJob) : s.feeds distance job = { s with
      cycle := { s.cycle with state := .feeding, taken := none, feedJob := some job }
      motion := { s.motion with
        queue := [.feed distance], executing := true, speed := none, kiss := .raised, thru := .raised
        commanded := some distance, encoder := 0, guardTimer := some s.motion.params.feedGuardTime }
      bed := { s.bed with
        toolKiss := none, toolThru := none, feedDrive := true, zones := Table.fill 4 false } } := by
  have same : ({ s with
      cycle := { s.cycle with hold := none, settleTimer := none }
      bed := { s.bed with beacon := false } } : State) = s := by
    rw [← hold, ← timer, ← beacon]
  rw [← same]
  rfl

end

/-! ### Going on from a hold -/

section
variable {s : State}

theorem settling_held (taken : s.cycle.taken = none) : s.settling = { s with
    cycle := { s.cycle with
      state := .measuring, hold := none, phase := .settle, settleTimer := some s.cycle.vacSettle }
    bed := { s.bed with beacon := false, zones := s.bed.zones.map fun z on => on || windowZone s.nest.params z } } := by
  unfold State.settling
  rw [← taken]

theorem feeds_held (taken : s.cycle.taken = none) (timer : s.cycle.settleTimer = none) (distance : Nat)
    (job : FeedJob) : s.feeds distance job = { s with
      cycle := { s.cycle with state := .feeding, hold := none, feedJob := some job }
      motion := { s.motion with
        queue := [.feed distance], executing := true, speed := none, kiss := .raised, thru := .raised
        commanded := some distance, encoder := 0, guardTimer := some s.motion.params.feedGuardTime }
      bed := { s.bed with
        toolKiss := none, toolThru := none, feedDrive := true, beacon := false, zones := Table.fill 4 false } } := by
  have same : s.withCycle { s.cycle with taken := none, settleTimer := none } = s := by
    rw [← taken, ← timer]
    rfl
  rw [← same]
  rfl

theorem resumeHeld_recover (recover : s.cycle.hold = some .recover) : s.resumeHeld = s.startRun := by
  unfold State.resumeHeld
  rw [recover]

theorem resumeHeld_full (full : s.cycle.hold = some .planFull) : s.resumeHeld = s.resumePlanFull := by
  unfold State.resumeHeld
  rw [full]

theorem startRun_feeds (owed : 0 < s.cycle.owed) (far : 0 < s.cycle.remainder) :
    s.startRun = s.placeFeed s.cycle.remainder.toNat ⟨.owed, s.cycle.owed⟩ := (if_pos owed).trans (if_pos far)

theorem startRun_enters (none_ : s.cycle.owed = 0) : s.startRun = s.enterWindow none :=
  if_neg (by rw [none_]; decide)

theorem resumePlanFull_planned {w : Worklist} (planned : s.plan.worklist = some w)
    (live : ∃ it ∈ w.items, it.state = .pending ∨ it.state = .active) : s.resumePlanFull = s.beginSettle := by
  obtain ⟨it, member, state⟩ := live
  have items : w.outcome = .items w.items.length :=
    if_pos (List.any_eq_true.mpr ⟨it, member, live_iff.mpr state⟩)
  unfold State.resumePlanFull
  rw [planned]
  dsimp only
  rw [items]

/-- The hold for a full plan entered again (R81, R98). -/
theorem resumePlanFull_again (unplanned : s.plan.worklist = none) (many : 256 < (s.builtItems s.cycle.pointer).length)
    (empty : s.motion.queue = []) : s.resumePlanFull =
      ((s.withPlan { s.plan with worklist := none }).heldWith s.motion .planFull).emit
        (heldNotice .planFull s.cycle.pointer (be16 (s.builtItems s.cycle.pointer).length)) := by
  unfold State.resumePlanFull
  rw [unplanned]
  dsimp only
  rw [buildWorklist_full many]
  exact enterHeld_eq (s := s.withPlan { s.plan with worklist := none }) (remove_empty empty _) .planFull _

theorem heldAgain_eq (held : s.cycle.state = .held) (full : s.cycle.hold = some .planFull)
    (taken : s.cycle.taken = none) (timer : s.cycle.settleTimer = none) (beacon : s.bed.beacon = true)
    (unplanned : s.plan.worklist = none) :
    (s.withPlan { s.plan with worklist := none }).heldWith s.motion .planFull = { s with
      cycle := { s.cycle with reasons := ⟨false, false, false⟩, halts := 0 }
      motion := { s.motion with kiss := .raised, thru := .raised }
      bed := { s.bed with toolKiss := none, toolThru := none } } := by
  have same : ({ s with
      plan := { s.plan with worklist := none }
      cycle := { s.cycle with state := .held, hold := some .planFull, taken := none, settleTimer := none }
      bed := { s.bed with beacon := true } } : State) = s := by
    rw [← held, ← full, ← taken, ← timer, ← beacon, ← unplanned]
  rw [← same]
  rfl

end

/-- Settles O42. -/
theorem resumeGoesOn : Obligations.ResumeGoesOn := by
  refine ⟨fun s tag ready safe => ?_, fun s tag sp ready safe shut homed empty going fixed readying => ⟨?_, ?_⟩,
    fun s tag w target ready safe cutting pending going planned stopped due room shut homed => ?_,
    fun s tag ready safe held shut homed empty quiet => ?_⟩
  · intro answer waiting
    have refused {status : Status} (act : actResume s = s.answer status) : answer status :=
      request_unchanged ready rfl act
    have ⟨⟨settled, quiet⟩, _⟩ := ready
    refine ⟨fun running => ⟨fun none_ => refused ?_, fun pending free => ?_⟩, fun elsewhere =>
      refused (actResume_refused elsewhere),
      fun waits open_ => refused ((actResume_waiting waits).trans (if_pos open_)),
      fun waits shut lost => refused ?_, fun taken suspended shut homed kept => ⟨fun settle timed => ?_,
      fun feed empty supplied => ?_⟩⟩
    · rw [actResume_running running, none_, if_neg (by decide)]
    · have act := actResume_running running
      have free : s.stoppedAtItem = false := by
        unfold State.stoppedAtItem
        cases planned : s.plan.worklist with
        | none => rfl
        | some w => exact free w planned
      rw [pending, if_pos rfl, cancelSuspension_going free] at act
      exact request_answered ready rfl act settled quiet
    · rw [actResume_waiting waits, show s.guardOpen = false from shut, if_neg (by decide), lost]
      rfl
    all_goals
      have act := actResume_suspended shut homed suspended kept
      have hold : s.cycle.hold = none := hold_of_safe safe (by rw [suspended]; decide)
      have timer : s.cycle.settleTimer = none := settleTimer_of_safe safe (by rw [suspended]; decide)
      have beacon := beacon_off_of_safe safe (by rw [suspended]; decide) (by rw [suspended]; decide)
    · rw [settle] at act
      dsimp only at act
      rw [beginSettle_eq timed, settling_unheld hold beacon] at act
      exact request_answered ready rfl act settled quiet
    · intro distance
      rw [feed] at act
      have feeds := request_feeds (i := .resume tag) (k := 0x23) (tag := tag) ready rfl act empty
        (not_executing_of_empty (s := s) settled empty) shut supplied quiet
      rw [feeds_unheld hold timer beacon] at feeds
      exact feeds
  · intro w target seam some_ usable planned due
    have act := actResume_readying shut homed safe readying
    obtain ⟨u, issues, issued, q, queue⟩ := issueWith_travels (s := s.readied.cutting) State.reopen planned due going
      (by show s.motion.queue.length < 32; rw [empty]; decide)
    rw [continueReadying_ready fixed some_ usable seam going, show s.readied.cutting.issueNow = u from issues] at act
    obtain ⟨_, _, _, cycle⟩ := issued.cycle
    obtain ⟨_, motion⟩ := issued.motion
    have front : u.motion.queue = .travel .planner target :: q := by
      rw [queue, show s.readied.cutting.motion.queue = [] from empty]
      rfl
    have guard : u.guardOpen = false := by
      unfold State.guardOpen State.level
      rw [issued.bed]
      exact shut
    obtain ⟨_, _, _, _, _, _, _, onBed⟩ := due
    obtain ⟨t, travels, same⟩ := request_travels (i := .resume tag) (k := 0x23) (tag := tag) ready rfl act front
      (by rw [motion]; exact not_executing_of_empty (s := s) ready.1.1 empty) guard (by rw [motion]; exact homed) onBed
    simp only [State.unitsOf, Prod.mk.injEq] at same
    obtain ⟨_, _, _, marks, _, cycle', motion', _⟩ := same
    refine ⟨t, travels, ?_, ?_, ?_, ?_, ?_, ?_⟩
    · rw [cycle']
      show u.cycle.state = _
      rw [cycle]
      rfl
    · rw [motion']
      show u.motion.queue.head? = _
      rw [front]
      rfl
    · rw [motion']
      rfl
    · rw [cycle']
      show u.cycle.hold = _
      rw [cycle]
      rfl
    · rw [cycle']
      show u.cycle.taken = _
      rw [cycle]
      rfl
    · rw [marks]
      exact issued.marks
  · intro row rect exists_ some_ state tries clipped
    have act := actResume_readying shut homed safe readying
    have attempts : row.left.atContinuation.attempts = tries := by
      unfold Mark.atContinuation tries
      split <;> rfl
    have unread : row.left.atContinuation.state = .unread := by
      unfold Mark.atContinuation
      split
      · rfl
      · rename_i other
        exact state.resolve_left other
    rw [continueReadying_searches fixed some_ exists_ unread going empty (by rw [attempts]; exact clipped)] at act
    refine ⟨_, request_searches (i := .resume tag) (k := 0x23) (tag := tag) ready rfl act
      (not_executing_of_empty (s := s) ready.1.1 empty) shut homed clipped ready.1.2, rfl, rfl, rfl, rfl, rfl, rfl,
      ?_, ?_,
      fun i side m mark apart => ?_⟩
    · rw [← attempts]
      rfl
    · refine (seam_tried ..).trans ?_
      show s.marks.continued.seam = _
      rw [continued_of_span fixed]
      rfl
    · refine (mark_tried_other ?_).trans (mark_continued fixed mark)
      rcases apart with other | right
      · exact .inl other
      · exact .inr ⟨rfl, right⟩
  · have act := actResume_running (s := s) (.inr (.inl cutting))
    have isStopped : s.stoppedAtItem = true := by rw [stoppedAtItem_of planned, stopped]
    rw [pending, if_pos rfl, cancelSuspension_stopped isStopped cutting] at act
    obtain ⟨u, issues, issued, q, queue⟩ := issueWith_travels (s := s.clearReasons) State.reopen planned due going room
    rw [show s.clearReasons.issueNow = u from issues] at act
    obtain ⟨_, _, _, cycle⟩ := issued.cycle
    obtain ⟨_, motion⟩ := issued.motion
    obtain ⟨_, _, _, _, _, _, _, onBed⟩ := due
    have closed : ∃ t, exec (.resume tag) s = .next t ∧ t.cycle = u.cycle ∧ t.motion.queue = u.motion.queue := by
      by_cases empty : s.motion.queue = []
      · have front : u.motion.queue = .travel .planner target :: q := by
          rw [queue, show s.clearReasons.motion.queue = [] from empty]
          rfl
        have guard : u.guardOpen = false := by
          unfold State.guardOpen State.level
          rw [issued.bed]
          exact shut
        obtain ⟨t, travels, same⟩ := request_travels (i := .resume tag) (k := 0x23) (tag := tag) ready rfl act front
          (by rw [motion]; exact not_executing_of_empty (s := s) ready.1.1 empty) guard (by rw [motion]; exact homed)
          onBed
        simp only [State.unitsOf, Prod.mk.injEq] at same
        obtain ⟨_, _, _, _, _, cycle', motion', _⟩ := same
        exact ⟨t, travels, cycle', by rw [motion']; rfl⟩
      · obtain ⟨e, more, moving⟩ := List.exists_cons_of_ne_nil empty
        have settled : u.motionSettled = true := by
          unfold State.motionSettled
          rw [queue, motion, show s.clearReasons.motion.executing = true from executing_of_queue ready.1.1 moving]
          simp
        exact ⟨_, (request_acted (i := .resume tag) ready rfl act).trans
          (congrArg Host.Outcome.next (close_settled (s := u.queueReply 0x23 tag .ok [] none) settled)), rfl, rfl⟩
    obtain ⟨t, resumes, cycle', queue'⟩ := closed
    refine ⟨t, resumes, ?_, ?_, ?_⟩
    · rw [cycle', cycle]
      exact cutting
    · rw [cycle', cycle]
      rfl
    · rw [queue', queue]
      show (s.motion.queue ++ _ :: q).take (s.motion.queue.length + 1) = _
      rw [List.take_length_add_append]
      rfl
  · intro settled
    have act := actResume_held shut homed held
    have taken : s.cycle.taken = none := taken_of_safe safe (by rw [held]; decide)
    have timer : s.cycle.settleTimer = none := settleTimer_of_safe safe (by rw [held]; decide)
    have beacon : s.bed.beacon = true := by
      rw [beacon_of_safe safe, held]
      rfl
    have still := not_executing_of_empty (s := s) ready.1.1 empty
    refine ⟨fun recover => ⟨fun owed far supplied => ?_, fun w none_ planned here live timed => ?_⟩,
      fun full => ⟨fun w planned live timed => ?_, fun unplanned many => ?_⟩⟩
    · rw [resumeHeld_recover recover, startRun_feeds owed far] at act
      have feeds := request_feeds (i := .resume tag) (k := 0x23) (tag := tag) ready rfl act empty still shut supplied
        ready.1.2
      rw [feeds_held taken timer] at feeds
      exact feeds
    · rw [resumeHeld_recover recover, startRun_enters none_,
        enterWindow_settles (planEnter_again planned here live) none quiet timed,
        settling_held (s := s.entered _ none) taken] at act
      exact request_notifies (i := .resume tag) ready rfl act ready.1.1 ready.1.2
    · rw [resumeHeld_full full, resumePlanFull_planned planned live, beginSettle_eq timed, settling_held taken] at act
      exact request_answered (i := .resume tag) ready rfl act ready.1.1 ready.1.2
    · rw [resumeHeld_full full, resumePlanFull_again unplanned many empty, heldAgain_eq held full taken timer beacon
        unplanned] at act
      exact request_notifies (i := .resume tag) ready rfl act ready.1.1 ready.1.2

end Sys2Proof.Machine

/-! The pieces of an outline and the plan of a window: crossing points, panels in order, windows met, weed borders
(R72, R75 to R80). -/

namespace Sys2Proof.Machine

/-! ### Crossing points -/

section
variable {c : CutRange} {vs : List Vertex}

theorem below_iff {v : Nat} : c.below v = true ↔ v < c.lo := decide_eq_true_iff

theorem above_iff {v : Nat} : c.above v = true ↔ if c.closed = true then c.hi < v else c.hi ≤ v := by
  unfold CutRange.above
  split <;> exact decide_eq_true_iff

theorem inside_iff {v : Nat} : c.inside v = true ↔ ¬c.below v = true ∧ ¬c.above v = true := by
  unfold CutRange.inside
  rw [Bool.and_eq_true, Bool.not_eq_true', Bool.not_eq_true', Bool.not_eq_true, Bool.not_eq_true]

theorem crossing_mod (i v : Nat) : crossing c vs (i % vs.length) v = crossing c vs i v := by
  have next : vertexAt vs (i % vs.length + 1) = vertexAt vs (i + 1) := by
    unfold vertexAt
    rw [Nat.mod_add_mod]
  unfold crossing
  rw [vertexAt_mod, next]

/-- A crossing point lies on the boundary next to the vertex outside and rounds the point of the edge there (R77). -/
def crossesAt (c : CutRange) (vs : List Vertex) (i out : Nat) (w : Vertex) : Prop :=
  (c.below (vertexAt vs out).v = true → w.v = c.lo) ∧ (c.above (vertexAt vs out).v = true → w.v = c.hi) ∧
  roundsTo ((vertexAt vs i).u + (((vertexAt vs (i + 1)).u : Rat) - (vertexAt vs i).u) *
    ((w.v : Rat) - (vertexAt vs i).v) / (((vertexAt vs (i + 1)).v : Rat) - (vertexAt vs i).v)) w.u

/-- What a vertex outside and the other end of a touching edge are to the boundary between them. -/
theorem boundary_between {v o : Nat} (range : c.lo ≤ c.hi) (outside : ¬c.inside v = true)
    (touch : c.inside o = true ∨ (c.below v = true ∧ c.above o = true) ∨ (c.above v = true ∧ c.below o = true)) :
    let b := if c.below v = true then c.lo else c.hi
    v ≠ o ∧ ((v ≤ b ∧ b ≤ o) ∨ (o ≤ b ∧ b ≤ v)) ∧ (c.above v = true → b = c.hi) := by
  intro b
  rw [above_iff]
  simp only [inside_iff, below_iff, above_iff] at outside touch
  by_cases below : v < c.lo
  · have low : b = c.lo := if_pos (below_iff.mpr below)
    rw [low]
    split at outside <;> simp_all <;> omega
  · have high : b = c.hi := if_neg (below_iff.not.mpr below)
    rw [high]
    split at outside <;> simp_all <;> omega

theorem crossesAt_crossing (range : c.lo ≤ c.hi) {i out : Nat} (end_ : out = i ∨ out = i + 1)
    (touch : touches c vs i = true) (outside : ¬insideAt c vs out) :
    crossesAt c vs i out (crossing c vs i (vertexAt vs out).v) := by
  have sides := (touches_iff c vs i).mp touch
  have bound := crossing_v c vs i (vertexAt vs out).v
  have spec : ∀ o, (out = i ∧ o = i + 1) ∨ (out = i + 1 ∧ o = i) → _ := fun o ends =>
    boundary_between (o := (vertexAt vs o).v) range outside (by
      rcases ends with ⟨rfl, rfl⟩ | ⟨rfl, rfl⟩ <;> tauto)
  refine ⟨fun below => bound.trans (if_pos below), fun above => ?_, ?_⟩
  · rcases end_ with rfl | rfl
    · exact bound.trans ((spec _ (.inl ⟨rfl, rfl⟩)).2.2 above)
    · exact bound.trans ((spec _ (.inr ⟨rfl, rfl⟩)).2.2 above)
  · rcases end_ with rfl | rfl
    · obtain ⟨apart, between, _⟩ := spec _ (.inl ⟨rfl, rfl⟩)
      exact crossing_u c vs _ _ apart (bound ▸ between)
    · obtain ⟨apart, between, _⟩ := spec _ (.inr ⟨rfl, rfl⟩)
      exact crossing_u c vs _ _ (Ne.symm apart) (bound ▸ between.symm)

/-- The entry and the exit of an open piece (R76, R77). -/
theorem openPiece_crosses (some_ : vs ≠ []) (range : c.lo ≤ c.hi) {p : Piece} (open_ : p ∈ openPieces c vs) :
    ∃ e x, p.entry = some e ∧ p.exit = some x ∧ crossesAt c vs p.first p.first e ∧
      crossesAt c vs (p.first + p.segments - 1) (p.first + p.segments) x := by
  obtain ⟨_, segments, _, _, start, stop, _, touch⟩ := openPieces_run c vs some_ p open_
  have last : p.first + p.segments - 1 + 1 = p.first + p.segments := by omega
  have touchLast := touch (p.segments - 1) (by omega)
  rw [show p.first + (p.segments - 1) = p.first + p.segments - 1 by omega] at touchLast
  obtain ⟨i, _, _, _, same⟩ := (mem_openPieces c vs p).mp open_
  refine ⟨crossing c vs p.first (vertexAt vs p.first).v,
    crossing c vs (p.first + p.segments - 1) (vertexAt vs (p.first + p.segments)).v, ?_, ?_,
    crossesAt_crossing range (.inl rfl) (touch 0 segments) start,
    crossesAt_crossing range (.inr last.symm) touchLast stop⟩
  · rw [same]
    rfl
  · rw [same]
    exact congrArg some (crossing_mod ..)

end

/-! ### The panels of a window in order -/

section
variable {s : State} {k : Nat}

theorem toCut_iff {p : Panel} : p.toCut = true ↔ p.lock = .committed ∧ (p.state = .placed ∨ p.state = .cutting) := by
  unfold Panel.toCut
  simp only [Bool.and_eq_true, Bool.or_eq_true, decide_eq_true_eq]

theorem meets_iff {lp : LayoutParams} {p : Panel} {j : Nat} : p.meets lp j = true ↔ ∃ pl, p.placement = some pl ∧
    pl.y < lp.windowStart (j + 1) ∧ lp.windowStart j < pl.y + p.eh pl.rotation := by
  unfold Panel.meets
  cases placed : p.placement with
  | none => exact ⟨fun h => (nomatch h), fun ⟨_, h, _⟩ => (nomatch h)⟩
  | some pl =>
    simp only [Bool.and_eq_true, decide_eq_true_eq]
    exact ⟨fun h => ⟨pl, rfl, h⟩, fun ⟨_, same, h⟩ => by rw [Option.some.inj same]; exact h⟩

theorem mem_selected {i : Slot} :
    i ∈ s.selected k ↔ (s.panel i).toCut = true ∧ (s.panel i).meets s.nest.params k = true := by
  unfold State.selected
  rw [List.mem_filter, Bool.and_eq_true]
  exact and_iff_right (List.mem_finRange i)

theorem slot_of_planPanel {lastRow : Nat} {i : Slot} {q : PanelPlan} (planned : s.planPanel k lastRow i = some q) :
    q.slot = i := by
  unfold State.planPanel at planned
  extract_lets p lp c outline border wps ops pts at planned
  split at planned
  · exact nomatch planned
  · rw [← Option.some.inj planned]

/-- The order of R80. -/
def PanelPlan.precedes (p q : PanelPlan) : Prop :=
  p.minV < q.minV ∨ (p.minV = q.minV ∧ (p.minU < q.minU ∨ (p.minU = q.minU ∧ p.slot.val < q.slot.val)))

theorem before_iff {p q : PanelPlan} : p.before q = true ↔ p.precedes q := by
  unfold PanelPlan.before PanelPlan.precedes
  simp only [Bool.or_eq_true, Bool.and_eq_true, decide_eq_true_eq]

theorem precedes_trans {p q r : PanelPlan} (h : p.precedes q) (k : q.precedes r) : p.precedes r := by
  unfold PanelPlan.precedes at *
  omega

/-- The plans of the panels selected for a window. -/
def State.plans (s : State) (k : Nat) : List PanelPlan := (s.selected k).filterMap (s.planPanel k s.lastRowV)

theorem mem_plans {q : PanelPlan} :
    q ∈ s.plans k ↔ ∃ i, i ∈ s.selected k ∧ s.planPanel k s.lastRowV i = some q := List.mem_filterMap

theorem nodup_plans : (s.plans k).Nodup := by
  refine List.Nodup.filterMap (fun i j q atI atJ => ?_) ((List.nodup_finRange 96).filter _)
  exact (slot_of_planPanel atI).symm.trans (slot_of_planPanel atJ)

theorem plan_of_slot {p q : PanelPlan} (inP : p ∈ s.plans k) (inQ : q ∈ s.plans k) (same : p.slot = q.slot) :
    p = q := by
  obtain ⟨i, _, planP⟩ := mem_plans.mp inP
  obtain ⟨j, _, planQ⟩ := mem_plans.mp inQ
  rw [slot_of_planPanel planP, slot_of_planPanel planQ] at same
  subst same
  exact Option.some.inj (planP.symm.trans planQ)

/-- The plans of a window stand in the order of R80. -/
theorem sorted_plans : (sortBy PanelPlan.before (s.plans k)).Pairwise PanelPlan.precedes := by
  have sorted := sortBy_sorted PanelPlan.before (fun q => q ∈ s.plans k)
    (fun _ _ _ h k => before_iff.mpr (precedes_trans (before_iff.mp h) (before_iff.mp k))) (fun p q inP inQ => by
      rw [before_iff, before_iff]
      by_cases same : p.slot = q.slot
      · exact .inr (.inl (plan_of_slot inP inQ same))
      · have apart : p.slot.val ≠ q.slot.val := fun h => same (Fin.ext h)
        unfold PanelPlan.precedes
        omega) (s.plans k) (fun _ h => h) nodup_plans
  exact sorted.imp before_iff.mp

end

/-! ### The plan of a panel -/

/-- The least coordinate of a plan is the one the bounding box takes (R4, R80). -/
theorem leastOf_map (f : Vertex → Nat) (l : List Vertex) : leastOf (l.map f) = leastBy f l := by
  cases l with
  | nil => rfl
  | cons a l => exact List.foldl_map

theorem leastBy_le {f : Vertex → Nat} {l : List Vertex} {w : Vertex} (member : w ∈ l) : leastBy f l ≤ f w := by
  cases l with
  | nil => exact absurd member List.not_mem_nil
  | cons a l =>
    obtain ⟨least, all⟩ := foldl_min_le f l (f a)
    rcases List.mem_cons.mp member with rfl | later
    · exact least
    · exact all w later

theorem leastBy_attained {f : Vertex → Nat} {l : List Vertex} (some_ : l ≠ []) : ∃ w ∈ l, f w = leastBy f l := by
  cases l with
  | nil => exact absurd rfl some_
  | cons a l =>
    rcases foldl_min_mem f l (f a) with same | ⟨w, member, same⟩
    · exact ⟨a, List.mem_cons_self, same.symm⟩
    · exact ⟨w, List.mem_cons_of_mem _ member, same.symm⟩

theorem piecePoints_ne_nil {vs : List Vertex} {ps : List Piece} (some_ : ps ≠ []) : piecePoints vs ps ≠ [] := by
  obtain ⟨p, rest, rfl⟩ := List.exists_cons_of_ne_nil some_
  intro h
  have first : piecePoint vs p.first p.segments p.entry p.exit 0 ∈ piecePoints vs (p :: rest) :=
    List.mem_flatMap.mpr ⟨p, List.mem_cons_self, List.mem_map.mpr ⟨0, List.mem_range.mpr (Nat.succ_pos _), rfl⟩⟩
  rw [h] at first
  exact absurd first List.not_mem_nil

/-! ### The windows a panel meets -/

section
variable {lp : LayoutParams} {p : Panel} {pl : Placement} (placed : p.placement = some pl)
include placed

theorem weedBorder_eq (distance lastRow : Nat) : weedBorder lp distance lastRow p =
    [⟨pl.x - distance, max (lp.windowStart (p.firstWindow lp)) (pl.y - distance)⟩,
      ⟨min lp.mediaWidth (pl.x + p.ew pl.rotation + distance),
        max (lp.windowStart (p.firstWindow lp)) (pl.y - distance)⟩,
      ⟨min lp.mediaWidth (pl.x + p.ew pl.rotation + distance),
        min (min (lp.windowStart (p.lastWindow lp + 1)) lastRow) (pl.y + p.eh pl.rotation + distance)⟩,
      ⟨pl.x - distance,
        min (min (lp.windowStart (p.lastWindow lp + 1)) lastRow) (pl.y + p.eh pl.rotation + distance)⟩] := by
  unfold weedBorder
  rw [placed]

theorem lastWindow_eq : p.lastWindow lp = (pl.y + p.eh pl.rotation - 1 - lp.lead) / lp.advance := by
  unfold Panel.lastWindow Panel.extentEnd
  rw [placed]
  rfl

theorem firstWindow_eq : p.firstWindow lp = (pl.y - lp.lead) / lp.advance := by
  unfold Panel.firstWindow
  rw [placed]

/-- A placed panel meets the windows from its first to its last (R72). -/
theorem meets_window (step : 0 < lp.advance) (behind : lp.lead ≤ pl.y) (high : 0 < p.eh pl.rotation) (j : Nat) :
    (pl.y < lp.windowStart (j + 1) ∧ lp.windowStart j < pl.y + p.eh pl.rotation) ↔
      p.firstWindow lp ≤ j ∧ j ≤ p.lastWindow lp := by
  rw [firstWindow_eq placed, lastWindow_eq placed]
  have first : (pl.y - lp.lead) / lp.advance ≤ j ↔ pl.y - lp.lead < (j + 1) * lp.advance := by
    rw [← Nat.div_lt_iff_lt_mul step, Nat.lt_succ_iff]
  have last : j ≤ (pl.y + p.eh pl.rotation - 1 - lp.lead) / lp.advance ↔
      j * lp.advance ≤ pl.y + p.eh pl.rotation - 1 - lp.lead := Nat.le_div_iff_mul_le step
  rw [first, last]
  unfold LayoutParams.windowStart
  omega

end

theorem advance_pos {lp : LayoutParams} (pitch : 0 < lp.markPitch) (fits : lp.markPitch ≤ lp.windowLength) :
    0 < lp.advance := Nat.mul_pos (Nat.div_pos fits pitch) pitch

/-! ### The plan layer, clause by clause (R72, R75 to R80) -/

section
variable {c : CutRange} {vs : List Vertex}

theorem rotatePieces_perm (n : Nat) (ps : List Piece) : (rotatePieces n ps).Perm ps := by
  unfold rotatePieces
  cases last : ps.getLast? with
  | none => exact .refl _
  | some p =>
    dsimp only
    split
    · exact ((List.perm_append_singleton p ps.dropLast).symm).trans (.of_eq (List.dropLast_append_getLast? p last))
    · exact .refl _

theorem nodup_rotated (n : Nat) : ((rotatePieces n (openPieces c vs)).map (·.first)).Nodup := by
  have ascend : ((openPieces c vs).map (·.first)).Pairwise (· < ·) :=
    List.pairwise_map.mpr (openPieces_ascend c vs)
  exact ((rotatePieces_perm n _).map _).nodup_iff.mpr (ascend.imp Nat.ne_of_lt)

/-- Every touching edge lies in one of the pieces (R76). -/
theorem edge_in_piece (some_ : vs ≠ []) (open_ : ¬∀ i, insideAt c vs i) {i : Nat} (below : i < vs.length)
    (touch : touches c vs i = true) : ∃ p ∈ openPieces c vs, ∃ j < p.segments, (p.first + j) % vs.length = i := by
  obtain ⟨f, first, touchFirst, outside, j, run, same⟩ := exists_openPiece c vs some_ open_ i below touch
  exact ⟨openPiece c vs f, (mem_openPieces c vs _).mpr ⟨f, first, touchFirst, outside, rfl⟩, j, run, same⟩

theorem piecePoint_closed (first segments : Nat) (exit : Option Vertex) (j : Nat) :
    piecePoint vs first segments none exit j = vertexAt vs (first + j) := rfl

theorem piecePoint_entry (first segments : Nat) (e x : Vertex) : piecePoint vs first segments (some e) (some x) 0 = e :=
  rfl

theorem piecePoint_exit {segments : Nat} (run : 0 < segments) (first : Nat) (e x : Vertex) :
    piecePoint vs first segments (some e) (some x) segments = x :=
  (if_neg run.ne').trans (if_pos (Nat.le_refl segments))

theorem piecePoint_inner {segments j : Nat} (after : 0 < j) (before : j < segments) (first : Nat) (e x : Vertex) :
    piecePoint vs first segments (some e) (some x) j = vertexAt vs (first + j) :=
  (if_neg after.ne').trans (if_neg (Nat.not_le.mpr before))

end

section
variable (s : State) (k lastRow : Nat) (i : Slot)

/-- The outlines of panel `i` a plan for window `k` cuts: its weed border and its outline (R78). -/
def State.borderOf : List Vertex :=
  if (s.panel i).weed = true then weedBorder s.nest.params s.plan.weedDistance lastRow (s.panel i) else []

/-- The points of the pieces of panel `i` in window `k` (R80). -/
def State.pointsOf : List Vertex :=
  piecePoints (s.borderOf lastRow i) (piecesOf (cutRange s.nest.params (s.panel i) k) (s.borderOf lastRow i)) ++
  piecePoints (s.mappedOutline (s.panel i))
    (piecesOf (cutRange s.nest.params (s.panel i) k) (s.mappedOutline (s.panel i)))

/-- The items of panel `i` in window `k`, those of its border before those of its outline (R79). -/
def State.itemsOf : List Item :=
  (piecesOf (cutRange s.nest.params (s.panel i) k) (s.borderOf lastRow i)).map
    (itemOf i .weed .kiss s.plan.kissPasses) ++
  (piecesOf (cutRange s.nest.params (s.panel i) k) (s.mappedOutline (s.panel i))).map
    (itemOf i .outline (s.panel i).tool (s.plan.outlinePasses (s.panel i)))

theorem planPanel_none
    (border : piecesOf (cutRange s.nest.params (s.panel i) k) (s.borderOf lastRow i) = [])
    (outline : piecesOf (cutRange s.nest.params (s.panel i) k) (s.mappedOutline (s.panel i)) = []) :
    s.planPanel k lastRow i = none :=
  if_pos (Bool.and_eq_true_iff.mpr ⟨List.isEmpty_iff.mpr border, List.isEmpty_iff.mpr outline⟩)

theorem planPanel_some
    (cut : piecesOf (cutRange s.nest.params (s.panel i) k) (s.borderOf lastRow i) ≠ [] ∨
      piecesOf (cutRange s.nest.params (s.panel i) k) (s.mappedOutline (s.panel i)) ≠ []) :
    s.planPanel k lastRow i = some ⟨leastBy (·.v) (s.pointsOf k lastRow i), leastBy (·.u) (s.pointsOf k lastRow i), i,
      s.itemsOf k lastRow i⟩ := by
  rw [← leastOf_map, ← leastOf_map]
  refine if_neg fun none_ => ?_
  obtain ⟨border, outline⟩ := Bool.and_eq_true_iff.mp none_
  exact cut.elim (fun h => h (List.isEmpty_iff.mp border)) (fun h => h (List.isEmpty_iff.mp outline))

theorem pointsOf_ne_nil
    (cut : piecesOf (cutRange s.nest.params (s.panel i) k) (s.borderOf lastRow i) ≠ [] ∨
      piecesOf (cutRange s.nest.params (s.panel i) k) (s.mappedOutline (s.panel i)) ≠ []) :
    s.pointsOf k lastRow i ≠ [] := fun none_ => by
  obtain ⟨border, outline⟩ := List.append_eq_nil_iff.mp none_
  exact cut.elim (fun h => piecePoints_ne_nil h border) (fun h => piecePoints_ne_nil h outline)

/-- The passes of an outline item are the panel's own unless they are 0 (R79). -/
theorem outlinePasses_eq (pl : Planner) (p : Panel) :
    (if p.passes ≠ 0 then p.passes else match p.tool with
      | .kiss => pl.kissPasses
      | .thru => pl.thruPasses) = pl.outlinePasses p := by
  unfold Planner.outlinePasses
  by_cases own : p.passes = 0
  · refine (if_neg (not_not.mpr own)).trans (Eq.trans ?_ (if_pos own).symm)
    cases p.tool <;> rfl
  · rw [if_pos own, if_neg own]

end

end Sys2Proof.Machine

/-! START_CUT and what it builds (R55, R75 to R81, R95, R96). -/

namespace Sys2Proof.Machine

/-! ### The checks of START_CUT (R95) -/

section
variable {s : State}

theorem anyToCutFrom_iff {lp : LayoutParams} {panels : Table Panel 96} {j : Nat} :
    anyToCutFrom lp panels.cells j = true ↔ ∃ i pl, (panels.get i).lock = .committed ∧
      ((panels.get i).state = .placed ∨ (panels.get i).state = .cutting) ∧ (panels.get i).placement = some pl ∧
      j ≤ (panels.get i).lastWindow lp := by
  unfold anyToCutFrom
  rw [Table.any_cells_iff]
  refine exists_congr fun i => ?_
  rw [Bool.and_eq_true, Bool.and_eq_true, decide_eq_true_eq, toCut_iff, Option.isSome_iff_exists]
  exact ⟨fun ⟨⟨⟨lock, state⟩, pl, placed⟩, last⟩ => ⟨pl, lock, state, placed, last⟩,
    fun ⟨pl, lock, state, placed, last⟩ => ⟨⟨⟨lock, state⟩, pl, placed⟩, last⟩⟩

theorem actStartCut_halted (halted : s.cycle.state = .halted) : actStartCut s = s.answer .faultLatched :=
  if_pos halted

theorem actStartCut_notIdle (notHalted : s.cycle.state ≠ .halted) (active : s.cycle.state ≠ .idle) :
    actStartCut s = s.answer .refusedState := (if_neg notHalted).trans (if_pos active)

/-- Checks 3 to 6 of R95 and the effect. -/
theorem actStartCut_idle (idle : s.cycle.state = .idle) : actStartCut s =
    if !s.motion.homed then s.answer .notHomed
    else if s.guardOpen then s.answer .guardOpen
    else if s.busy then s.answer .busy
    else if !anyToCutFrom s.nest.params s.store.panels.cells (s.cycle.pointer + s.cycle.owed) then s.answer .notFound
    else (s.withCycle { s.cycle with runActive := true }).startRun.done := by
  unfold actStartCut
  rw [idle, if_neg (by decide), if_neg (by decide)]

theorem actStartCut_starts (idle : s.cycle.state = .idle) (homed : s.motion.homed = true) (shut : s.guardOpen = false)
    (still : s.motion.executing = false)
    (toCut : anyToCutFrom s.nest.params s.store.panels.cells (s.cycle.pointer + s.cycle.owed) = true) :
    actStartCut s = (s.withCycle { s.cycle with runActive := true }).startRun.done := by
  rw [actStartCut_idle idle, homed, shut, show s.busy = false from still, toCut]
  rfl

end

/-! ### A window with nothing to cut (R88, R96, R99) -/

section
variable {s : State}

/-- A panel that a window completion leaves as it is: one still PLACED (R88). -/
theorem atWindowDone_placed {p : Panel} (placed : p.state = .placed) (lp : LayoutParams) (k : Nat) :
    p.atWindowDone lp k = p := by
  unfold Panel.atWindowDone
  rw [placed]
  rfl

theorem doneBase_counted {w : Worklist} (planned : s.plan.worklist = some w) (fresh : w.completed = false) :
    s.doneBase = s.counted := by
  have first : s.alreadyDone = false := by
    unfold State.alreadyDone
    rw [planned]
    exact fresh
  unfold State.doneBase
  rw [first]
  rfl

/-- A window completed with a panel still to cut behind it feeds, unless a suspension or a stop is pending (R99). -/
theorem windowDone_feeds {w : Worklist} (planned : s.plan.worklist = some w) (fresh : w.completed = false)
    (more : anyToCutFrom s.nest.params s.counted.store.panels.cells (s.cycle.pointer + 1) = true)
    (quiet : s.suspendPending = false) (going : s.cycle.stopPending = false) :
    s.windowDone = (s.counted.emit (windowDoneNotice s.cycle.pointer)).runFeed := by
  unfold State.windowDone
  rw [completeWindow_eq, doneBase_counted planned fresh, more, if_pos rfl]
  dsimp only
  rw [if_neg (show ¬(s.counted.emit _).suspendPending = true from Bool.eq_false_iff.mp quiet)]
  exact if_neg (Bool.eq_false_iff.mp going)

theorem enterWindow_empty {u : State} {count : Nat} (plan : s.planEnter = (u, .empty count)) (advance : Option Int) :
    s.enterWindow advance = u.windowDone := by
  unfold State.enterWindow
  rw [plan]

/-- A request that places a FEED in the empty queue of an idle motion unit, whatever notices it formed. -/
theorem request_feeds_units {i : Instr} {k tag : Byte} {act : State → Acted} {s u : State} {distance : Nat}
    {job : FeedJob} (ready : s.ready) (wf : i.wellFormed = true) (acted : act s = (u.placeFeed distance job).done)
    (empty : u.motion.queue = []) (idle : u.motion.executing = false) (shut : u.guardOpen = false)
    (supplied : u.mediaEnd = false) :
    ∃ t, request i (serve k tag act) s = .next t ∧ t.unitsOf = (u.feeds distance job).unitsOf := by
  rw [placeFeed_eq empty] at acted
  have closes := close_takes (t := (u.feedPlaced distance job).queueReply k tag .ok [] none) (e := .feed distance) idle
    rfl nofun
  rw [takeEntry_feed (s := (u.feedPlaced distance job).queueReply k tag .ok [] none) shut supplied] at closes
  exact ⟨_, (request_acted ready wf acted).trans (congrArg Host.Outcome.next closes), rfl⟩

end

/-! ### The opening of a window (R55) -/

section
variable (mu : MarkUnit) (k : Nat) (advance : Option Int)

theorem openWindow_spanned (sp : Span) : mu.openWindow k (some sp) advance = { mu.respan sp (Mark.atOpening k) with
    span := some sp
    flight := none
    seam := match advance with
      | some a => if 0 < k then some ⟨k, a⟩ else none
      | none => none } := rfl

/-- A mark at the opening of window `k` (R55). -/
theorem atOpening_eq (m : Mark) : m.atOpening k = if m.state = .unread then { m with attempts := 0 } else
    ⟨.unread, none, (match m.measured with
      | some q => if q.window < k then some q else m.previous
      | none => m.previous), 0⟩ := by
  unfold Mark.atOpening
  refine if_congr Iff.rfl rfl ?_
  cases m.measured with
  | none => rfl
  | some q =>
    dsimp only
    split <;> rfl

end

/-! ### The issue pointer at the cursor (R85) -/

theorem rewind_at {w : Worklist} {i : Nat} {it : Item} (cursor : w.cursorIndex = some i)
    (item : w.items[i]? = some it) :
    w.rewind = { w with issue := ⟨some i, it.passDone, it.segDone, true, false⟩ } := by
  unfold Worklist.rewind issueAt
  rw [cursor]
  dsimp only
  rw [item]

theorem rewind_none {w : Worklist} (cursor : w.cursorIndex = none) :
    w.rewind = { w with issue := ⟨none, 0, 0, false, false⟩ } := by
  unfold Worklist.rewind issueAt
  rw [cursor]

theorem not_live_iff {it : Item} : it.live = false ↔ ¬(it.state = .pending ∨ it.state = .active) := by
  rw [← live_iff, Bool.not_eq_true]

end Sys2Proof.Machine

/-! START_CUT feeds, or builds the window and settles (R95, R96), with the plan it makes (R72, R75 to R80). -/

namespace Sys2Proof.Machine

/-! ### The run started (R95, R96) -/

/-- What START_CUT checks (R95). -/
structure State.CanStart (s : State) : Prop where
  safe : s.cycleSafe = true
  idle : s.cycle.state = .idle
  homed : s.motion.homed = true
  shut : s.guardOpen = false
  still : s.motion.executing = false
  toCut : anyToCutFrom s.nest.params s.store.panels.cells (s.cycle.pointer + s.cycle.owed) = true

/-- Run-active set (R95). -/
def State.inRun (s : State) : State := s.withCycle { s.cycle with runActive := true }

section
variable {s : State} {tag : Byte}

theorem plain_inRun (can : s.CanStart) : s.inRun.Plain := by
  have ⟨hold, taken, timer, beacon⟩ := plain_of_safe can.safe (by rw [can.idle]; decide) (by rw [can.idle]; decide)
    (by rw [can.idle]; decide) (by rw [can.idle]; decide)
  exact ⟨hold, taken, timer, beacon⟩

theorem actStartCut_runs (can : s.CanStart) : actStartCut s = s.inRun.startRun.done :=
  actStartCut_starts can.idle can.homed can.shut can.still can.toCut

theorem actStartCut_enters (can : s.CanStart) (none_ : s.cycle.owed = 0) :
    actStartCut s = (s.inRun.enterWindow none).done := by
  rw [actStartCut_runs can, startRun_enters (s := s.inRun) none_]

variable (ready : s.ready) (can : s.CanStart)
include ready can

theorem startCut_feeds (owed : 0 < s.cycle.owed) (far : 0 < s.cycle.remainder) (supplied : s.mediaEnd = false) :
    exec (.startCut tag) s = .next ({ s with
      cycle := { s.cycle with state := .feeding, runActive := true, feedJob := some ⟨.owed, s.cycle.owed⟩ }
      motion := { s.motion with
        queue := [.feed s.cycle.remainder.toNat], executing := true, speed := none, kiss := .raised
        thru := .raised, commanded := some s.cycle.remainder.toNat, encoder := 0
        guardTimer := some s.motion.params.feedGuardTime }
      bed := { s.bed with
        toolKiss := none, toolThru := none, feedDrive := true, zones := Table.fill 4 false } }.queueReply 0x21 tag .ok
          [] none) := by
  have act := actStartCut_runs can
  rw [startRun_feeds (s := s.inRun) owed far] at act
  have feeds := request_feeds (i := .startCut tag) (k := 0x21) (tag := tag) ready rfl act
    (queue_empty_of_idle (s := s) ready.1.1 can.still) can.still can.shut supplied ready.1.2
  rw [feeds_plain (plain_inRun can)] at feeds
  exact feeds

variable (none_ : s.cycle.owed = 0)
include none_

/-- The window entered has items: START_CUT begins the settle (R93, R96). -/
theorem startCut_settles {l : Worklist} {count : Nat} {n : OutRecord} (quiet : s.suspendPending = false)
    (timed : 0 < s.cycle.vacSettle)
    (plan : s.inRun.planEnter = ((s.inRun.withPlan { s.plan with worklist := some l }).emit n, .items count)) :
    exec (.startCut tag) s = .next (State.queueNotice n ({ s with
      cycle := { s.cycle with
        state := .measuring, runActive := true, phase := .settle, settleTimer := some s.cycle.vacSettle }
      plan := { s.plan with worklist := some l }
      marks := s.marks.openWindow s.cycle.pointer s.windowSpan none
      bed := { s.bed with
        zones := s.bed.zones.map fun z on => on || windowZone s.nest.params z } }.queueReply 0x21 tag .ok
          [] none)) := by
  have act := actStartCut_enters can none_
  have ⟨hold, taken, timer, beacon⟩ := plain_inRun can
  rw [enterWindow_settles plan none quiet timed,
    settling_plain (s := s.inRun.entered (some l) none) ⟨hold, taken, timer, beacon⟩] at act
  exact request_notifies (i := .startCut tag) ready rfl act ready.1.1 ready.1.2

variable (unplanned : s.plan.worklist = none)
include unplanned

/-- More than 256 items hold the run (R81, R96). -/
theorem startCut_full (many : 256 < (s.builtItems s.cycle.pointer).length) :
    exec (.startCut tag) s = .next (State.queueNotice
      (heldNotice .planFull s.cycle.pointer (be16 (s.builtItems s.cycle.pointer).length)) ({ s with
        cycle := { s.cycle with
          state := .held, hold := some .planFull, runActive := true, reasons := ⟨false, false, false⟩, halts := 0 }
        marks := s.marks.openWindow s.cycle.pointer s.windowSpan none
        motion := { s.motion with kiss := .raised, thru := .raised }
        bed := { s.bed with toolKiss := none, toolThru := none, beacon := true } }.queueReply 0x21 tag .ok
          [] none)) := by
  have act := actStartCut_enters can none_
  have ⟨_, taken, timer, _⟩ := plain_inRun can
  have empty := queue_empty_of_idle (s := s) ready.1.1 can.still
  have plan := planEnter_full (s := s.inRun) unplanned many
  have left : (s.inRun.entered none none).motion.remove Entry.ofPlanner = s.motion := remove_empty empty _
  have same : (s.inRun.entered none none).heldWith s.motion .planFull = { s with
      cycle := { s.cycle with
        state := .held, hold := some .planFull, runActive := true, reasons := ⟨false, false, false⟩, halts := 0 }
      marks := s.marks.openWindow s.cycle.pointer s.windowSpan none
      motion := { s.motion with kiss := .raised, thru := .raised }
      bed := { s.bed with toolKiss := none, toolThru := none, beacon := true } } := by
    have here : ({ s with
        plan := { s.plan with worklist := none }
        cycle := { s.cycle with taken := none, settleTimer := none } } : State) = s := by
      rw [← (show s.cycle.taken = none from taken), ← (show s.cycle.settleTimer = none from timer), ← unplanned]
    have whole := congrArg (fun t : State => ({ t with
      cycle := { t.cycle with
        state := .held, hold := some .planFull, runActive := true, reasons := ⟨false, false, false⟩, halts := 0 }
      marks := s.marks.openWindow s.cycle.pointer s.windowSpan none
      motion := { s.motion with kiss := .raised, thru := .raised }
      bed := { s.bed with toolKiss := none, toolThru := none, beacon := true } } : State)) here
    exact whole
  have holds := enterHeld_eq left .planFull (be16 (s.builtItems s.cycle.pointer).length)
  rw [same] at holds
  have full : s.inRun.enterWindow none = _ := (enterWindow_full plan none).trans holds
  rw [full] at act
  exact request_notifies (i := .startCut tag) ready rfl act ready.1.1 ready.1.2

/-- A window with nothing to cut is completed at once and fed past (R88, R96, R99). -/
theorem startCut_passes (fits : s.builtItems s.cycle.pointer = []) (quiet : s.suspendPending = false)
    (going : s.cycle.stopPending = false) (supplied : s.mediaEnd = false)
    (more : anyToCutFrom s.nest.params s.counted.store.panels.cells (s.cycle.pointer + 1) = true) :
    ∃ t, exec (.startCut tag) s = .next t ∧ t.unitsOf = ((((s.inRun.withPlan { s.plan with
      worklist := some (s.builtWorklist s.cycle.pointer) }).emit
        (windowStartNotice s.cycle.pointer (s.builtItems s.cycle.pointer).length)).counted.emit
          (windowDoneNotice s.cycle.pointer)).feeds s.nest.params.advance ⟨.run, 1⟩).unitsOf := by
  have act := actStartCut_enters can none_
  have few : (s.builtItems s.cycle.pointer).length ≤ 256 := by
    rw [fits]
    decide
  have plan := (planEnter_fits (s := s.inRun) unplanned few).trans (congrArg (Prod.mk _) (if_pos fits))
  have feeds : s.inRun.enterWindow none = _ := (enterWindow_empty plan none).trans
    (windowDone_feeds (w := s.builtWorklist s.cycle.pointer) rfl rfl more quiet going)
  rw [feeds] at act
  exact request_feeds_units (i := .startCut tag) (k := 0x21) (tag := tag) ready rfl act
    (queue_empty_of_idle (s := s) ready.1.1 can.still) can.still can.shut supplied

end

/-- Settles O40. -/
theorem startCutFeedsOrSettles : Obligations.StartCutFeedsOrSettles := by
  refine ⟨fun s tag i pl ready safe idle homed shut still lock state placed last => ?_, fun s tag ready => ?_,
    fun s tag i pl ready safe idle homed shut still none_ unplanned quiet going lock state placed last => ?_,
    fun mu k advance => ?_, fun w i it => ?_, fun s k => ?_, fun c vs some_ range => ?_,
    fun lp p pl distance lastRow k placed pitch fits behind high => ?_⟩
  · have can : s.CanStart := ⟨safe, idle, homed, shut, still, anyToCutFrom_iff.mpr ⟨i, pl, lock, state, placed, last⟩⟩
    exact ⟨fun owed far supplied => startCut_feeds ready can owed far supplied,
      fun w none_ planned here live quiet timed => startCut_settles ready can none_ quiet timed
        (planEnter_again (s := s.inRun) planned here live)⟩
  · intro answer toCut
    have refused {status : Status} (act : actStartCut s = s.answer status) : answer status :=
      request_unchanged ready rfl act
    refine ⟨fun halted => refused (actStartCut_halted halted),
      fun notHalted active => refused (actStartCut_notIdle notHalted active), fun idle => ?_⟩
    have act := actStartCut_idle idle
    refine ⟨fun lost => refused ?_, fun homed open_ => refused ?_, fun homed shut busy => refused ?_,
      fun homed shut still nothing => refused ?_⟩
    · rw [act, lost]
      rfl
    · rw [act, homed, show s.guardOpen = true from open_]
      rfl
    · rw [act, homed, show s.guardOpen = false from shut, show s.busy = true from busy]
      rfl
    · have none_ := Bool.eq_false_iff.mpr (anyToCutFrom_iff.not.mpr nothing)
      rw [act, homed, show s.guardOpen = false from shut, show s.busy = false from still, none_]
      rfl
  · intro k items built
    have can : s.CanStart := ⟨safe, idle, homed, shut, still,
      anyToCutFrom_iff.mpr ⟨i, pl, lock, .inl state, placed, by rw [none_]; exact last⟩⟩
    refine ⟨fun many => startCut_full ready can none_ unplanned many, fun some_ few timed =>
      startCut_settles ready can none_ quiet timed (planEnter_items (s := s.inRun) unplanned some_ few),
      fun nothing later supplied => ?_⟩
    have kept : s.counted.store.panels.get i = s.panel i :=
      (Table.get_map ..).trans (atWindowDone_placed state _ _)
    have more : anyToCutFrom s.nest.params s.counted.store.panels.cells (s.cycle.pointer + 1) = true :=
      anyToCutFrom_iff.mpr ⟨i, pl, by rw [kept]; exact ⟨lock, .inl state, placed, later⟩⟩
    obtain ⟨t, starts, same⟩ := startCut_passes (tag := tag) ready can none_ unplanned nothing quiet going supplied more
    simp only [State.unitsOf, Prod.mk.injEq] at same
    obtain ⟨_, _, _, marks, plan, cycle, motion, _⟩ := same
    refine ⟨t, starts, by rw [cycle]; rfl, by rw [cycle]; rfl, by rw [motion]; rfl, by rw [marks]; rfl, ?_⟩
    rw [plan]
    rfl
  · intro opened fresh
    refine ⟨fun span => ⟨?_, ?_, ?_⟩, rfl, rfl, fun sp => ?_, fun sp j exists_ least most => ?_, fun sp j outside => ?_⟩
    · rfl
    · rfl
    · rfl
    · have same : Mark.atOpening k = fresh := funext (atOpening_eq k)
      rw [← same]
      exact mapSpan_eq ..
    · exact bands_respan_inside _ exists_ least most
    · exact bands_respan_outside _ outside
  · refine ⟨?_, rewind_at, rewind_none⟩
    simp only [cursorIndex_eq_some_iff, live_iff, not_live_iff]
  · intro lp v order
    refine ⟨fun i => ?_, ⟨sortBy PanelPlan.before (s.plans k), rfl, sorted_plans, fun p => ?_⟩, fun i lastRow => ?_⟩
    · rw [mem_selected, toCut_iff, meets_iff, and_assoc]
      rfl
    · exact (sortBy_perm ..).mem_iff.trans mem_plans
    · intro p border wps ops pts passes
      refine ⟨planPanel_none s k lastRow i, fun cut => ⟨_, planPanel_some s k lastRow i cut, rfl, ?_, ?_, ?_, ?_⟩⟩
      · have same : passes = s.plan.outlinePasses p := outlinePasses_eq ..
        rw [same]
        rfl
      · exact fun w member => ⟨leastBy_le (f := (·.v)) member, leastBy_le (f := (·.u)) member⟩
      · exact leastBy_attained (pointsOf_ne_nil s k lastRow i cut)
      · exact leastBy_attained (pointsOf_ne_nil s k lastRow i cut)
  · intro n vertex below above inside touching crosses
    have insides : ∀ j, insideAt c vs j ↔ inside j := fun j => by
      show c.inside _ = true ↔ _
      rw [inside_iff, below_iff, above_iff]
      rfl
    have touchings : ∀ j, touches c vs j = true ↔ touching j := fun j => by
      rw [touches_iff, insides, insides, below_iff, below_iff, above_iff, above_iff]
      rfl
    have crossings : ∀ j out w, crossesAt c vs j out w → crosses j out w := fun j out w => by
      unfold crossesAt
      rw [below_iff, above_iff]
      exact id
    refine ⟨fun all => piecesOf_closed c vs some_ fun j => (insides j).mpr (all j), fun open_ => ?_, fun p j =>
      ⟨fun closed => ?_, fun e x entry exit run => ?_⟩⟩
    · have notAll : ¬∀ j, insideAt c vs j := fun all => open_ fun j => (insides j).mp (all j)
      rw [piecesOf_open c vs some_ notAll]
      refine ⟨fun p member => ?_, fun j less touch => ?_, nodup_rotated _, fun p rest cons_ => ?_⟩
      · have isOpen := (mem_rotatePieces ..).mp member
        obtain ⟨first, one, most, last, start, stop, within, touch⟩ := openPieces_run c vs some_ p isOpen
        obtain ⟨e, x, entry, exit, enters, leaves⟩ := openPiece_crosses some_ range isOpen
        exact ⟨first, one, most, last, (insides _).not.mp start, (insides _).not.mp stop,
          fun j after before => (insides _).mp (within j after before),
          fun j before => (touchings _).mp (touch j before),
          e, x, entry, exit, crossings _ _ _ enters, crossings _ _ _ leaves⟩
      · obtain ⟨p, member, holds⟩ := edge_in_piece some_ notAll less ((touchings j).mpr touch)
        exact ⟨p, (mem_rotatePieces ..).mpr member, holds⟩
      · obtain ⟨ascend, least⟩ := rotatePieces_order c vs some_ notAll p rest cons_
        exact ⟨ascend, fun j less touch => least j less ((touchings j).mpr touch)⟩
    · rw [closed]
      exact piecePoint_closed ..
    · rw [entry, exit]
      exact ⟨piecePoint_entry .., piecePoint_exit run .., fun after before => piecePoint_inner after before ..⟩
  · intro v met f l
    have meets := meets_window placed (advance_pos pitch fits) behind high
    have ordered : f ≤ l := by
      rw [show f = _ from firstWindow_eq placed, show l = _ from lastWindow_eq placed]
      exact Nat.div_le_div_right (by omega)
    refine ⟨(meets f).mpr ⟨le_rfl, ordered⟩, (meets l).mpr ⟨ordered, le_rfl⟩, meets, rfl,
      _, _, _, _, weedBorder_eq placed distance lastRow, ?_, rfl, ?_, rfl⟩
    · omega
    · show ((max (v f) (pl.y - distance) : Nat) : Int) = _
      omega

end Sys2Proof.Machine

/-! What the mark unit's checks compute: the first mark in a state, the search centre, the seam check and the geometry
check (R56, R60, R61). -/

namespace Sys2Proof.Machine

section
variable {mu : MarkUnit} {sp : Span} (fixed : mu.span = some sp)
include fixed

/-! ### The first mark in a state and the search centre (R56) -/

/-- The first mark of a span in a state, said of the marks themselves. -/
theorem firstIn_iff (st : MarkState) (i : Nat) (side : Side) : mu.firstIn st = some (i, side) ↔
    (sp.first ≤ i ∧ i ≤ sp.last ∧ (∃ m, mu.mark i side = some m ∧ m.state = st) ∧
      ∀ j other m, sp.first ≤ j → (j < i ∨ (j = i ∧ other = .left ∧ side = .right)) → mu.mark j other = some m →
        m.state ≠ st) := by
  rw [firstIn_eq_some_iff fixed, and_assoc, Option.map_eq_some_iff]
  refine and_congr_right fun _ => and_congr_right fun most => and_congr_right fun _ =>
    ⟨fun h j other m least before mark state => ?_, fun h j other inSpan before isIn => ?_⟩
  · have inSpan : j ≤ sp.last := before.elim (fun less => by omega) (fun same => by omega)
    exact h j other ⟨least, inSpan⟩ before (by rw [mark, ← state]; rfl)
  · obtain ⟨m, mark, state⟩ := Option.map_eq_some_iff.mp isIn
    exact h j other m inSpan.1 before mark state

theorem searchCentre_above {i : Nat} {side : Side} {m : Mark} {q : Measured} (below : sp.first < i)
    (within : i ≤ sp.last + 1) (mark : mu.mark (i - 1) side = some m) (measured : m.measured = some q)
    (lp : LayoutParams) (k : Nat) : mu.searchCentre lp k i side =
      if m.state = .read ∨ m.state = .set then
        ⟨(nominalBed lp k i side).x + (q.pos.x - (nominalBed lp k (i - 1) side).x),
          (nominalBed lp k i side).y + (q.pos.y - (nominalBed lp k (i - 1) side).y)⟩
      else nominalBed lp k i side := by
  have inSpan : (decide (0 < i) && sp.has (i - 1)) = true := by
    unfold Span.has
    simp only [Bool.and_eq_true, decide_eq_true_eq]
    omega
  have off : mu.offsetBelow lp k i side = if m.state = .read ∨ m.state = .set then
      ⟨q.pos.x - (nominalBed lp k (i - 1) side).x, q.pos.y - (nominalBed lp k (i - 1) side).y⟩ else ⟨0, 0⟩ := by
    unfold MarkUnit.offsetBelow
    rw [fixed]
    dsimp only
    rw [if_pos inSpan, mark]
    dsimp only
    rw [measured]
    by_cases held : m.state = .read ∨ m.state = .set
    · rw [if_pos held, held_iff.mpr held]
    · rw [if_neg held, Bool.eq_false_iff.mpr (held_iff.not.mpr held)]
  unfold MarkUnit.searchCentre
  rw [off]
  by_cases held : m.state = .read ∨ m.state = .set
  · simp only [if_pos held]
  · simp only [if_neg held]
    show BedPos.mk (_ + 0) (_ + 0) = _
    rw [Int.add_zero, Int.add_zero]

end

/-! ### The seam check (R60) -/

/-- The deviation of a side, of the two. -/
def ofSide (l r : Option Nat) : Side → Option Nat
  | .left => l
  | .right => r

theorem greaterDev_none {l r : Option Nat} : greaterDev l r = none ↔ ∀ side, ofSide l r side = none := by
  have sides : (∀ side, ofSide l r side = none) ↔ l = none ∧ r = none :=
    ⟨fun h => ⟨h .left, h .right⟩, fun ⟨hl, hr⟩ side => by cases side <;> assumption⟩
  rw [sides]
  cases l with
  | none =>
    cases r with
    | none => exact ⟨fun _ => ⟨rfl, rfl⟩, fun _ => rfl⟩
    | some r => exact ⟨fun h => (nomatch h), fun h => (nomatch h.2)⟩
  | some l =>
    refine ⟨fun h => ?_, fun h => (nomatch h.1)⟩
    cases r with
    | none => exact nomatch h
    | some r =>
      simp only [greaterDev] at h
      split at h
      · exact nomatch h
      · split at h <;> exact nomatch h

/-- The greater deviation is that of its side and at least that of the other. -/
theorem greaterDev_greatest {l r : Option Nat} {d : Nat} {side : Side} (greater : greaterDev l r = some (d, side)) :
    ofSide l r side = some d ∧ ∀ other e, ofSide l r other = some e → e ≤ d := by
  have all {e : Nat} (least : ∀ a, l = some a → a ≤ d) (most : ∀ a, r = some a → a ≤ d) (other : Side)
      (is : ofSide l r other = some e) : e ≤ d := by
    cases other with
    | left => exact least e is
    | right => exact most e is
  cases l with
  | none =>
    cases r with
    | none => exact nomatch greater
    | some r =>
      obtain ⟨rfl, rfl⟩ := Prod.mk.inj (Option.some.inj greater)
      exact ⟨rfl, fun other _ is => all nofun (fun a same => (Option.some.inj same).ge) other is⟩
  | some l =>
    cases r with
    | none =>
      obtain ⟨rfl, rfl⟩ := Prod.mk.inj (Option.some.inj greater)
      exact ⟨rfl, fun other _ is => all (fun a same => (Option.some.inj same).ge) nofun other is⟩
    | some r =>
      simp only [greaterDev] at greater
      have bounds (low : l ≤ d) (high : r ≤ d) : ∀ other e, ofSide (some l) (some r) other = some e → e ≤ d :=
        fun other _ is => all (fun a same => (Option.some.inj same).symm.le.trans low)
          (fun a same => (Option.some.inj same).symm.le.trans high) other is
      split at greater
      · obtain ⟨rfl, rfl⟩ := Prod.mk.inj (Option.some.inj greater)
        exact ⟨rfl, bounds le_rfl (by omega)⟩
      · split at greater
        · obtain ⟨rfl, rfl⟩ := Prod.mk.inj (Option.some.inj greater)
          exact ⟨rfl, bounds (by omega) le_rfl⟩
        · obtain ⟨rfl, same⟩ := Prod.mk.inj (Option.some.inj greater)
          refine ⟨?_, bounds le_rfl (by omega)⟩
          cases side with
          | left => rfl
          | right => exact congrArg some (by omega)

section
variable {mu : MarkUnit} {sp : Span} {pend : SeamPending} {row : MarkRow} (fixed : mu.span = some sp)
  (pending : mu.seam = some pend) (exists_ : mu.rows[sp.first]? = some row)
include fixed pending exists_

theorem seamFailure_eq : mu.seamFailure =
    (greaterDev (seamDevSq pend row.left) (seamDevSq pend row.right)).filter
      fun q => decide (mu.seamTol * mu.seamTol < q.1) := by
  unfold MarkUnit.seamFailure
  rw [pending, fixed]
  dsimp only
  rw [exists_]
  dsimp only
  cases greaterDev (seamDevSq pend row.left) (seamDevSq pend row.right) with
  | none => rfl
  | some q =>
    rw [Option.filter_some]
    simp only [decide_eq_true_eq]

omit fixed pending exists_ in
theorem ofSide_seam (side : Side) :
    ofSide (seamDevSq pend row.left) (seamDevSq pend row.right) side = seamDevSq pend (row.get side) := by
  cases side <;> rfl

theorem seamFailure_none_iff :
    mu.seamFailure = none ↔ ∀ side d, seamDevSq pend (row.get side) = some d → d ≤ mu.seamTol ^ 2 := by
  rw [seamFailure_eq fixed pending exists_]
  simp only [← ofSide_seam, pow_two]
  cases greater : greaterDev (seamDevSq pend row.left) (seamDevSq pend row.right) with
  | none =>
    have none_ := greaterDev_none.mp greater
    refine ⟨fun _ side d is => ?_, fun _ => rfl⟩
    rw [none_ side] at is
    exact nomatch is
  | some q =>
    obtain ⟨d, side⟩ := q
    obtain ⟨here, greatest⟩ := greaterDev_greatest greater
    rw [Option.filter_eq_none_iff]
    refine ⟨fun h other e is => ?_, fun h => ?_⟩
    · have within := h (d, side) rfl
      simp only [decide_eq_true_eq] at within
      exact (greatest other e is).trans (Nat.not_lt.mp within)
    · intro p same
      obtain rfl := Option.some.inj same
      simp only [decide_eq_true_eq]
      exact Nat.not_lt.mpr (h side d here)

theorem seamFailure_some {d : Nat} {side : Side} (fails : mu.seamFailure = some (d, side)) :
    seamDevSq pend (row.get side) = some d ∧ mu.seamTol ^ 2 < d ∧
      ∀ other e, seamDevSq pend (row.get other) = some e → e ≤ d := by
  rw [seamFailure_eq fixed pending exists_] at fails
  obtain ⟨greater, above⟩ := Option.filter_eq_some_iff.mp fails
  obtain ⟨here, greatest⟩ := greaterDev_greatest greater
  simp only [ofSide_seam] at here greatest
  exact ⟨here, by rw [pow_two]; exact of_decide_eq_true above, greatest⟩

end

/-! ### The geometry check (R61) -/

/-- The first index of a range where a function is defined. -/
theorem findSome?_range_eq_some {β : Type} {f : Nat → Option β} {n : Nat} {b : β} :
    (List.range n).findSome? f = some b ↔ ∃ d < n, f d = some b ∧ ∀ e < d, f e = none := by
  constructor
  · intro found
    obtain ⟨l, d, r, split_, here, before⟩ := List.findSome?_eq_some_iff.mp found
    have size := congrArg List.length split_
    simp only [List.length_range, List.length_append, List.length_cons] at size
    have at_ : (List.range n)[l.length]? = some d := by
      rw [split_, List.getElem?_append_right (Nat.le_refl _), Nat.sub_self]
      rfl
    rw [List.getElem?_range (by omega)] at at_
    have whole := Option.some.inj at_
    refine ⟨d, by omega, here, fun e less => before e ?_⟩
    have at_ : (List.range n)[e]? = some e := List.getElem?_range (by omega)
    rw [split_, List.getElem?_append_left (by omega)] at at_
    exact List.mem_of_getElem? at_
  · rintro ⟨d, less, here, before⟩
    refine List.findSome?_eq_some_iff.mpr ⟨List.range d, d, (List.range (n - d - 1)).map (d + 1 + ·), ?_, here,
      fun e member => before e (List.mem_range.mp member)⟩
    rw [← List.singleton_append, ← List.append_assoc, ← List.range_succ, ← List.range_add]
    exact congrArg List.range (by omega)

/-- Band `d` of a span when it fails, with its ratio and value (R61). -/
def MarkUnit.failingBand (mu : MarkUnit) (sp : Span) (d : Nat) : Option (Nat × RatioKind × Nat) :=
  match mu.bands[sp.first + d]? with
  | some (.fail k p) => some (sp.first + d, k, p)
  | _ => none

theorem failingBand_iff {mu : MarkUnit} {sp : Span} {d j : Nat} {k : RatioKind} {p : Nat} :
    mu.failingBand sp d = some (j, k, p) ↔ j = sp.first + d ∧ mu.bands[sp.first + d]? = some (.fail k p) := by
  unfold MarkUnit.failingBand
  split
  · rename_i k' p' band
    simp only [band, Option.some.injEq, Prod.mk.injEq, Geometry.fail.injEq]
    exact ⟨fun ⟨at_, rest⟩ => ⟨at_.symm, rest⟩, fun ⟨at_, rest⟩ => ⟨at_.symm, rest⟩⟩
  · rename_i other
    exact ⟨fun h => (nomatch h), fun ⟨_, band⟩ => absurd band (other _ _)⟩

section
variable {mu : MarkUnit} {sp : Span} (fixed : mu.span = some sp)
include fixed

/-- The lowest failing band of a span (R61). -/
theorem firstFailure_iff {i : Nat} {kind : RatioKind} {ppm : Nat} : mu.firstFailure = some (i, kind, ppm) ↔
    (sp.first ≤ i ∧ i < sp.last ∧ mu.bands[i]? = some (.fail kind ppm) ∧
      ∀ j, sp.first ≤ j → j < i → ∀ other p, mu.bands[j]? ≠ some (.fail other p)) := by
  have whole : mu.firstFailure = (List.range (sp.last - sp.first)).findSome? (mu.failingBand sp) := by
    unfold MarkUnit.firstFailure
    rw [fixed] <;> rfl
  rw [whole, findSome?_range_eq_some]
  constructor
  · rintro ⟨d, less, here, before⟩
    obtain ⟨rfl, band⟩ := failingBand_iff.mp here
    refine ⟨by omega, by omega, band, fun j least most other p at_ => ?_⟩
    have here := failingBand_iff.mpr ⟨rfl, (show sp.first + (j - sp.first) = j by omega).symm ▸ at_⟩
    rw [before (j - sp.first) (by omega)] at here
    exact nomatch here
  · rintro ⟨least, most, band, before⟩
    have here : sp.first + (i - sp.first) = i := by omega
    refine ⟨i - sp.first, by omega, failingBand_iff.mpr ⟨here.symm, here.symm ▸ band⟩, fun e less => ?_⟩
    cases result : mu.failingBand sp e with
    | none => rfl
    | some q =>
      obtain ⟨j, k, p⟩ := q
      exact absurd (failingBand_iff.mp result).2 (before (sp.first + e) (by omega) (by omega) k p)

theorem bands_checkSpan (lp : LayoutParams) {i : Nat} (exists_ : i < mu.bands.length) : (mu.checkSpan lp).bands[i]? =
    if sp.first ≤ i ∧ i < sp.last then some (mu.checkBand lp i) else mu.bands[i]? := by
  unfold MarkUnit.checkSpan
  rw [fixed]
  show (mu.bands.mapIdx _)[i]? = _
  rw [List.getElem?_mapIdx, List.getElem?_eq_getElem exists_]
  simp only [Option.map_some, Bool.and_eq_true, decide_eq_true_eq]
  split <;> rfl

end

theorem rows_checkSpan (mu : MarkUnit) (lp : LayoutParams) : (mu.checkSpan lp).rows = mu.rows := by
  unfold MarkUnit.checkSpan
  split <;> rfl

theorem checkBand_measured {mu : MarkUnit} {i : Nat} {a b : MarkRow} {la ra lb rb : Measured}
    (lower : mu.rows[i]? = some a) (upper : mu.rows[i + 1]? = some b) (isLa : a.left.measured = some la)
    (isRa : a.right.measured = some ra) (isLb : b.left.measured = some lb) (isRb : b.right.measured = some rb)
    (lp : LayoutParams) : mu.checkBand lp i = geometryOf lp mu.geomTol la.pos ra.pos lb.pos rb.pos := by
  obtain ⟨⟨_, _, _, _⟩, ⟨_, _, _, _⟩⟩ := a
  obtain ⟨⟨_, _, _, _⟩, ⟨_, _, _, _⟩⟩ := b
  dsimp only at isLa isRa isLb isRb
  subst isLa isRa isLb isRb
  unfold MarkUnit.checkBand MarkUnit.bandMarks
  rw [lower, upper]

/-! ### The ratios (R61) -/

/-- The ratio of a row's width to the nominal spacing (R61). -/
def widthRatio (lp : LayoutParams) (a b : BedPos) : Rat := |(b.x : Rat) - a.x| / lp.spacing

/-- The square of the ratio of a distance to MARK_PITCH (R61). -/
def heightRatioSq (lp : LayoutParams) (a b : BedPos) : Rat :=
  (((b.x : Rat) - a.x) ^ 2 + ((b.y : Rat) - a.y) ^ 2) / (lp.markPitch : Rat) ^ 2

theorem widthRatio_eq (lp : LayoutParams) (a b : BedPos) :
    ((b.x - a.x).natAbs : Rat) / lp.spacing = widthRatio lp a b := by
  unfold widthRatio
  rw [Nat.cast_natAbs]
  push_cast
  rfl

theorem heightRatioSq_eq (lp : LayoutParams) (a b : BedPos) :
    (distSq a b : Rat) / (lp.markPitch : Rat) ^ 2 = heightRatioSq lp a b := by
  have whole : (distSq a b : Rat) = ((distSq a b : Int) : Rat) := rfl
  unfold heightRatioSq
  rw [whole, distSq_eq]
  push_cast
  rfl

/-- `n` is the root of `q` rounded to the nearest count, by squares (0-5.2). -/
def rootRounds (q : Rat) (n : Nat) : Prop :=
  (n = 0 ∨ ((2 * n - 1 : Rat)) ^ 2 ≤ 4 * q) ∧ 4 * q < (2 * n + 1 : Rat) ^ 2

theorem rootRounds_roundSqrtDiv (d : Nat) : rootRounds d (roundSqrtDiv d 1) := by
  have bounds := roundSqrtDiv_bounds d 1 Nat.one_pos
  rw [Nat.cast_one, div_one] at bounds
  exact bounds

section
variable {lp : LayoutParams} {tol : Nat}

/-- A ratio within 1 ± GEOM_TOL (R61). -/
def widthGood (lp : LayoutParams) (tol : Nat) (a b : BedPos) : Prop :=
  1 - (tol : Rat) / 10000 ≤ widthRatio lp a b ∧ widthRatio lp a b ≤ 1 + (tol : Rat) / 10000

/-- A ratio within 1 ± GEOM_TOL, by squares (R61). -/
def heightGood (lp : LayoutParams) (tol : Nat) (a b : BedPos) : Prop :=
  (1 - (tol : Rat) / 10000) ^ 2 ≤ heightRatioSq lp a b ∧ heightRatioSq lp a b ≤ (1 + (tol : Rat) / 10000) ^ 2

variable (small : tol ≤ 10000) (wide : 0 < lp.spacing) (high : 0 < lp.markPitch)

include small wide in
theorem widthGood_iff (a b : BedPos) : widthOk lp.spacing tol (b.x - a.x).natAbs = true ↔ widthGood lp tol a b := by
  rw [widthOk_iff _ _ _ wide small, widthRatio_eq]
  rfl

include small high in
theorem heightGood_iff (a b : BedPos) : heightOk lp.markPitch tol (distSq a b) = true ↔ heightGood lp tol a b := by
  rw [heightOk_iff _ _ _ high small, heightRatioSq_eq]
  rfl

include wide in
theorem roundsTo_width (a b : BedPos) :
    roundsTo (1000000 * widthRatio lp a b) (widthPpm lp.spacing (b.x - a.x).natAbs : Nat) := by
  rw [← widthRatio_eq]
  exact roundsTo_widthPpm _ _ wide

include high in
theorem rootRounds_height (a b : BedPos) :
    rootRounds (1000000 ^ 2 * heightRatioSq lp a b) (heightPpm lp.markPitch (distSq a b)) := by
  have bounds := roundSqrtDiv_bounds (1000000000000 * distSq a b) (lp.markPitch * lp.markPitch) (Nat.mul_pos high high)
  have same : ((1000000000000 * distSq a b : Nat) : Rat) / ((lp.markPitch * lp.markPitch : Nat) : Rat) =
      1000000 ^ 2 * heightRatioSq lp a b := by
    rw [← heightRatioSq_eq]
    push_cast
    ring
  rw [same] at bounds
  exact bounds

include small wide high in
/-- The geometry result by its four ratios, in the order of R61. -/
theorem geometryOf_cases (l r l' r' : BedPos) :
    (widthGood lp tol l r → widthGood lp tol l' r' → heightGood lp tol l l' → heightGood lp tol r r' →
      geometryOf lp tol l r l' r' = .ok) ∧
    (¬widthGood lp tol l r →
      geometryOf lp tol l r l' r' = .fail .lowerWidth (widthPpm lp.spacing (r.x - l.x).natAbs)) ∧
    (widthGood lp tol l r → ¬widthGood lp tol l' r' →
      geometryOf lp tol l r l' r' = .fail .upperWidth (widthPpm lp.spacing (r'.x - l'.x).natAbs)) ∧
    (widthGood lp tol l r → widthGood lp tol l' r' → ¬heightGood lp tol l l' →
      geometryOf lp tol l r l' r' = .fail .leftHeight (heightPpm lp.markPitch (distSq l l'))) ∧
    (widthGood lp tol l r → widthGood lp tol l' r' → heightGood lp tol l l' → ¬heightGood lp tol r r' →
      geometryOf lp tol l r l' r' = .fail .rightHeight (heightPpm lp.markPitch (distSq r r'))) := by
  unfold geometryOf
  simp only [← widthGood_iff small wide, ← heightGood_iff small high, Bool.not_eq_true]
  refine ⟨fun a b c d => ?_, fun a => ?_, fun a b => ?_, fun a b c => ?_, fun a b c d => ?_⟩
  · rw [a, b, c, d]
    rfl
  · rw [a]
    rfl
  · rw [a, b]
    rfl
  · rw [a, b, c]
    rfl
  · rw [a, b, c, d]
    rfl

end

end Sys2Proof.Machine

/-! A SEARCH ends: its result recorded, and what follows it in the readying (R56, R57, R62, R97, R123, R124). -/

namespace Sys2Proof.Machine

/-! ### The mark sensor's report -/

theorem intLeRat_iff {n : Int} {q : Rat} : intLeRat n q = true ↔ (n : Rat) ≤ q := by
  have pos : (0 : Rat) < q.den := by exact_mod_cast q.den_pos
  conv_rhs => rw [← Rat.num_div_den q, le_div_iff₀ pos]
  unfold intLeRat
  rw [decide_eq_true_eq]
  exact_mod_cast Iff.rfl

theorem ratLeInt_iff {n : Int} {q : Rat} : ratLeInt q n = true ↔ q ≤ (n : Rat) := by
  have pos : (0 : Rat) < q.den := by exact_mod_cast q.den_pos
  conv_rhs => rw [← Rat.num_div_den q, div_le_iff₀ pos]
  unfold ratLeInt
  rw [decide_eq_true_eq]
  exact_mod_cast Iff.rfl

theorem contains_iff {r : Rect} {x y : Rat} : r.contains x y = true ↔
    (r.x0 : Rat) ≤ x ∧ x ≤ r.x1 ∧ (r.y0 : Rat) ≤ y ∧ y ≤ r.y1 := by
  unfold Rect.contains
  rw [Bool.and_eq_true, Bool.and_eq_true, Bool.and_eq_true, intLeRat_iff, ratLeInt_iff, intLeRat_iff, ratLeInt_iff,
    and_assoc, and_assoc]

theorem roundsTo_num (q : Rat) : roundsTo q (roundDiv q.num q.den) := by
  have rounds := roundsTo_roundDiv q.num q.den q.den_pos
  rwa [Rat.num_div_den] at rounds

/-- The centre reported, rounded, is the one position it rounds to (R124). -/
theorem roundedCentre_eq {x y : Rat} {pos : BedPos} (atX : roundsTo x pos.x) (atY : roundsTo y pos.y) :
    roundedCentre x y = pos := by
  obtain ⟨px, py⟩ := pos
  exact congrArg₂ BedPos.mk (roundsTo_unique _ _ _ (roundsTo_num x) atX) (roundsTo_unique _ _ _ (roundsTo_num y) atY)

section
variable {s : State} {r : Rect} (rest : s.atRest)
include rest

theorem exec_searchScanEnd_idle (empty : s.motion.queue = []) : exec .searchScanEnd s = .next s := by
  have none_ : s.motion.executingEntry = none := executingEntry_idle rest.1 empty
  show Host.Outcome.next s.begin.scanEnds.close = _
  rw [begin_quiet rest.2]
  unfold State.scanEnds
  rw [none_]
  exact congrArg Host.Outcome.next (close_rest s rest)

variable (queue : s.motion.queue = [.search r])
include queue

theorem exec_searchScanEnd : exec .searchScanEnd s = .next (s.searchCompletes none).close := by
  have entry := executingEntry_of_queue rest.1 queue
  show Host.Outcome.next s.begin.scanEnds.close = _
  rw [begin_quiet rest.2]
  unfold State.scanEnds
  rw [entry]

theorem sensorReports_eq (x y : Rat) : s.sensorReports x y =
    if r.contains x y then s.searchCompletes (some (roundedCentre x y)) else s := by
  have entry := executingEntry_of_queue rest.1 queue
  unfold State.sensorReports
  rw [entry]

theorem exec_report_outside {x y : Rat} (outside : ¬r.contains x y = true) :
    exec (.markSensorReport x y) s = .next s := by
  show Host.Outcome.next (s.begin.sensorReports x y).close = _
  rw [begin_quiet rest.2, sensorReports_eq rest queue, if_neg outside, close_rest s rest]

theorem exec_report_inside {x y : Rat} (inside : r.contains x y = true) :
    exec (.markSensorReport x y) s = .next (s.searchCompletes (some (roundedCentre x y))).close := by
  show Host.Outcome.next (s.begin.sensorReports x y).close = _
  rw [begin_quiet rest.2, sensorReports_eq rest queue, if_pos inside]

end

/-! ### The result recorded (R57) -/

/-- The last entry gone from the queue, the marks as a search result leaves them. -/
def State.searched (s : State) (mu : MarkUnit) : State := s.endEntry.withMarks mu

/-- The marks with a mark READ in window `k`, nothing in flight (R57). -/
def MarkUnit.readAt (mu : MarkUnit) (f : SearchInFlight) (m : Mark) (pos : BedPos) (k : Nat) : MarkUnit :=
  ({ mu with flight := none }.setMark f.row f.side { m with state := .read, measured := some ⟨pos, k⟩ }).uncheckRow
    f.row

/-- The marks with a mark MISSED, nothing in flight (R57). -/
def MarkUnit.missedAt (mu : MarkUnit) (f : SearchInFlight) (m : Mark) : MarkUnit :=
  { mu with flight := none }.setMark f.row f.side { m with state := .missed }

section
variable {mu : MarkUnit} {f : SearchInFlight} {row : MarkRow} (exists_ : mu.rows[f.row]? = some row)
include exists_

theorem readAt_eq (m : Mark) (pos : BedPos) (k : Nat) : mu.readAt f m pos k = { mu with
    flight := none
    rows := mu.rows.set f.row (row.set f.side { m with state := .read, measured := some ⟨pos, k⟩ })
    bands := mu.bands.mapIdx fun i g => if i = f.row ∨ i + 1 = f.row then .unchecked else g } :=
  setMark_uncheckRow (mu := { mu with flight := none }) exists_ f.side _

theorem mark_setMark_same (m : Mark) : (mu.setMark f.row f.side m).mark f.row f.side = some m := by
  have inside : f.row < mu.rows.length := (List.getElem?_eq_some_iff.mp exists_).1
  have now : (mu.setMark f.row f.side m).rows[f.row]? = some (row.set f.side m) := by
    rw [rows_setMark exists_, List.getElem?_set_self inside]
  rw [mark_of_row now, get_set]

theorem mark_readAt (m : Mark) (pos : BedPos) (k : Nat) : (mu.readAt f m pos k).mark f.row f.side =
    some { m with state := .read, measured := some ⟨pos, k⟩ } :=
  mark_setMark_same (mu := { mu with flight := none }) exists_ _

theorem mark_missedAt (m : Mark) : (mu.missedAt f m).mark f.row f.side = some { m with state := .missed } :=
  mark_setMark_same (mu := { mu with flight := none }) exists_ _

theorem unchecked_readAt {i : Nat} (m : Mark) (pos : BedPos) (k : Nat) (near : i = f.row ∨ i + 1 = f.row)
    (below : i < mu.bands.length) : (mu.readAt f m pos k).bands[i]? = some .unchecked := by
  rw [readAt_eq exists_]
  show (mu.bands.mapIdx _)[i]? = _
  rw [List.getElem?_mapIdx, List.getElem?_eq_getElem below]
  exact congrArg some (if_pos near)

/-- A mark just READ leaves a band of the span to check (R59, R61). -/
theorem not_spanUsable_readAt {sp : Span} (fixed : mu.span = some sp) (some_ : sp.first < sp.last)
    (least : sp.first ≤ f.row) (most : f.row ≤ sp.last) (m : Mark) (pos : BedPos) (k : Nat) :
    (mu.readAt f m pos k).spanUsable = false := by
  have fixed' : (mu.readAt f m pos k).span = some sp := by
    rw [readAt_eq exists_]
    exact fixed
  obtain ⟨i, first, last, near⟩ : ∃ i, sp.first ≤ i ∧ i < sp.last ∧ (i = f.row ∨ i + 1 = f.row) := by
    by_cases top : f.row = sp.last
    · exact ⟨f.row - 1, by omega, by omega, by omega⟩
    · exact ⟨f.row, least, by omega, .inl rfl⟩
  have unusable : (mu.readAt f m pos k).usable i ≠ true := fun usable => by
    obtain ⟨ok, _⟩ := usable_iff.mp usable
    have below : i < mu.bands.length := by
      have here := (List.getElem?_eq_some_iff.mp ok).1
      rw [readAt_eq exists_] at here
      simpa using here
    rw [unchecked_readAt exists_ m pos k near below] at ok
    exact nomatch ok
  unfold MarkUnit.spanUsable
  rw [fixed']
  refine List.all_eq_false.mpr ⟨i - sp.first, List.mem_range.mpr (by omega), ?_⟩
  rw [show sp.first + (i - sp.first) = i by omega]
  exact unusable

end

section
variable {s : State} {row : Nat} {side : Side} {m : Mark} (mark : s.marks.mark row side = some m)
include mark

theorem recordSearch_found (pos : BedPos) : s.recordSearch row side (some pos) =
    s.withMarks (({ s.marks with flight := none }.setMark row side
      { m with state := .read, measured := some ⟨pos, s.cycle.pointer⟩ }).uncheckRow row) := by
  unfold State.recordSearch
  extract_lets marks mu
  have here : mu.mark row side = some m := mark
  rw [here]

theorem recordSearch_once (first : m.attempts = 1) :
    s.recordSearch row side none = s.withMarks { s.marks with flight := none } := by
  unfold State.recordSearch
  extract_lets marks mu
  have here : mu.mark row side = some m := mark
  rw [here]
  exact if_pos first.le

theorem recordSearch_twice (second : m.attempts = 2) : s.recordSearch row side none =
    s.withMarks ({ s.marks with flight := none }.setMark row side { m with state := .missed }) := by
  unfold State.recordSearch
  extract_lets marks mu
  have here : mu.mark row side = some m := mark
  rw [here]
  exact if_neg (by rw [second]; decide)

theorem missedMark_eq : s.missedMark row side = if m.state = .missed then some (row, side) else none := by
  unfold State.missedMark State.isMissed
  rw [mark, Option.map_some]
  simp only [Option.some.injEq, decide_eq_true_eq]

end

section
variable {s : State} {f : SearchInFlight} (flight : s.marks.flight = some f)
include flight

theorem searchCompletes_eq {mu : MarkUnit} {found : Option BedPos}
    (recorded : s.endEntry.recordSearch f.row f.side found = s.searched mu) : s.searchCompletes found =
      ((s.searched mu).afterSearch ((s.searched mu).missedMark f.row f.side) State.searchNow).restTools := by
  have here : s.endEntry.marks.flight = some f := flight
  unfold State.searchCompletes
  simp only [here]
  rw [recorded]

variable {row : MarkRow} (exists_ : s.marks.rows[f.row]? = some row)
include exists_

theorem searchCompletes_found (pos : BedPos) : s.searchCompletes (some pos) =
    ((s.searched (s.marks.readAt f (row.get f.side) pos s.cycle.pointer)).afterSearch none
      State.searchNow).restTools := by
  have read := missedMark_eq (s := s.searched (s.marks.readAt f (row.get f.side) pos s.cycle.pointer))
    (mark_readAt exists_ (row.get f.side) pos s.cycle.pointer)
  rw [if_neg (fun h => nomatch (show MarkState.read = .missed from h))] at read
  rw [searchCompletes_eq flight (recordSearch_found (s := s.endEntry) (mark_of_row exists_ f.side) pos)]
  exact congrArg (fun missed => ((s.searched _).afterSearch missed State.searchNow).restTools) read

theorem searchCompletes_once (unread : (row.get f.side).state = .unread) (first : (row.get f.side).attempts = 1) :
    s.searchCompletes none =
      ((s.searched { s.marks with flight := none }).afterSearch none State.searchNow).restTools := by
  have stays := missedMark_eq (s := s.searched { s.marks with flight := none }) (mark_of_row exists_ f.side)
  rw [unread, if_neg (by decide)] at stays
  rw [searchCompletes_eq flight (recordSearch_once (s := s.endEntry) (mark_of_row exists_ f.side) first)]
  exact congrArg (fun missed => ((s.searched _).afterSearch missed State.searchNow).restTools) stays

theorem searchCompletes_twice (second : (row.get f.side).attempts = 2) : s.searchCompletes none =
    ((s.searched (s.marks.missedAt f (row.get f.side))).afterSearch (some (f.row, f.side))
      State.searchNow).restTools := by
  have missed := missedMark_eq (s := s.searched (s.marks.missedAt f (row.get f.side)))
    (mark_missedAt exists_ (row.get f.side))
  rw [if_pos rfl] at missed
  rw [searchCompletes_eq flight (recordSearch_twice (s := s.endEntry) (mark_of_row exists_ f.side) second)]
  exact congrArg (fun missed => ((s.searched _).afterSearch missed State.searchNow).restTools) missed

end

/-! ### What follows a result (R57, R97) -/

section
variable {s : State} {goOn : State → State} (readying : s.inReadying = true) (going : s.cycle.stopPending = false)
include readying going

theorem afterSearch_missed (row : Nat) (side : Side) :
    s.afterSearch (some (row, side)) goOn = s.heldMissed row side := by
  unfold State.afterSearch
  rw [readying, going, if_neg (by decide), if_neg (by decide)]

theorem afterSearch_suspends (pending : s.suspendPending = true) :
    s.afterSearch none goOn = s.takeSuspension .continue := by
  unfold State.afterSearch
  rw [readying, going, if_neg (by decide), if_neg (by decide)]
  exact if_pos pending

theorem afterSearch_goesOn (quiet : s.suspendPending = false) : s.afterSearch none goOn = goOn s := by
  unfold State.afterSearch
  rw [readying, going, if_neg (by decide), if_neg (by decide)]
  exact if_neg (Bool.eq_false_iff.mp quiet)

theorem searchNow_checks (none_ : s.marks.firstIn .unread = none) : s.searchNow = s.checks State.issueNow := by
  unfold State.searchNow State.search State.searchFrom
  rw [readying, going, if_neg (by decide), none_]

end

/-! ### The checks and their outcome (R60 to R62) -/

section
variable {s : State} {onReady : State → State} (found : s.marks.firstIn .missed = none)
  (due : s.marks.spanUsable = false)
include found due

theorem checks_seam {d : Nat} {side : Side} (fails : s.marks.seamFailure = some (d, side)) : s.checks onReady =
    s.enterHeld .seamDeviation (be32 (roundSqrtDiv d 1) ++ [u8 side.code]) := by
  unfold State.checks
  rw [found]
  dsimp only
  rw [due, Bool.and_false, if_neg (by decide), fails]

variable (passes : s.marks.seamFailure = none)
include passes

/-- The marks with every band of the span checked, no seam pending (R60, R61). -/
def State.checked (s : State) : State := s.withMarks ({ s.marks with seam := none }.checkSpan s.nest.params)

theorem checks_geometry {band : Nat} {kind : RatioKind} {ppm : Nat}
    (fails : s.checked.marks.firstFailure = some (band, kind, ppm)) : s.checks onReady =
      s.checked.enterHeld .markGeometry ([u8 band, u8 kind.code] ++ be32 ppm) := by
  unfold State.checks
  rw [found]
  dsimp only
  rw [due, Bool.and_false, if_neg (by decide), passes]
  dsimp only
  rw [show (s.withMarks _).marks.firstFailure = _ from fails]
  rfl

theorem checks_ready (fits : s.checked.marks.firstFailure = none) :
    s.checks onReady = onReady s.checked.cutting := by
  unfold State.checks
  rw [found]
  dsimp only
  rw [due, Bool.and_false, if_neg (by decide), passes]
  dsimp only
  rw [show (s.withMarks _).marks.firstFailure = _ from fits]
  rfl

end

end Sys2Proof.Machine

/-! A search reads its mark or misses it (R56, R57, R60 to R62, R97, R98, R124). -/

namespace Sys2Proof.Machine

/-! ### The outcomes of a result, at the close -/

section
variable {u : State} (empty : u.motion.queue = []) (idle : u.motion.executing = false) (quiet : u.link.formed = [])
include empty idle quiet

theorem close_suspended (resume : ResumePoint) : (u.takeSuspension resume).restTools.close =
    (u.suspendedWith u.motion resume).queueNotice
      (suspendedNotice ⟨u.cycle.reasons, u.cycle.halts, resume⟩ u.cycle.pointer u.cursorItem) := by
  have rest : (u.suspendedWith u.motion resume).atRest := by
    refine ⟨?_, quiet⟩
    show (u.motion.executing == !u.motion.queue.isEmpty) = true
    rw [idle, empty]
    rfl
  have raised (n : OutRecord) : ((u.suspendedWith u.motion resume).emit n).raiseTools =
      (u.suspendedWith u.motion resume).emit n := rfl
  rw [takeSuspension_eq (remove_empty empty _), restTools_empty (s := (u.suspendedWith _ _).emit _) empty, raised,
    close_emit rest]

theorem close_held (reason : HoldReason) (detail : List Byte) : (u.enterHeld reason detail).restTools.close =
    (u.heldWith u.motion reason).queueNotice (heldNotice reason u.cycle.pointer detail) := by
  have rest : (u.heldWith u.motion reason).atRest := by
    refine ⟨?_, quiet⟩
    show (u.motion.executing == !u.motion.queue.isEmpty) = true
    rw [idle, empty]
    rfl
  have raised (n : OutRecord) :
      ((u.heldWith u.motion reason).emit n).raiseTools = (u.heldWith u.motion reason).emit n := rfl
  rw [enterHeld_eq (remove_empty empty _), restTools_empty (s := (u.heldWith _ _).emit _) empty, raised,
    close_emit rest]

variable (shut : u.guardOpen = false) (homed : u.motion.homed = true)
include shut homed

omit empty in
theorem close_searches {square rect : Rect} (row : Nat) (side : Side) (m : Mark)
    (clipped : clipToBed square = some rect) :
    (u.searching row side m rect).restTools.close = (u.searching row side m rect).travels :=
  close_searching row side m idle shut homed clipped quiet

omit quiet in
/-- The planner issues a TRAVEL at READY, and it is taken at the close (R83, R120). -/
theorem close_ready {w : Worklist} {target : BedPos} (planned : u.plan.worklist = some w) (due : u.travelDueTo w target)
    (going : u.cycle.stopPending = false) : ∃ t q, u.issueNow.restTools.close = t ∧ t.marks = u.marks ∧
      t.cycle.state = u.cycle.state ∧ t.motion.queue = .travel .planner target :: q ∧ t.motion.executing = true := by
  obtain ⟨v, issues, issued, q, queue⟩ := issueWith_travels (s := u) State.reopen planned due going
    (by rw [empty]; decide)
  obtain ⟨_, _, _, cycle⟩ := issued.cycle
  obtain ⟨_, motion⟩ := issued.motion
  obtain ⟨_, _, _, _, _, _, _, onBed⟩ := due
  rw [empty, List.nil_append] at queue
  have guard : v.guardOpen = false := by
    unfold State.guardOpen State.level
    rw [issued.bed]
    exact shut
  have stays : v.restTools = v := if_neg (by rw [queue]; exact Bool.false_ne_true)
  have still : v.motion.executing = false := by
    rw [motion]
    exact idle
  have closes := close_takes (t := v) (e := .travel .planner target) (rest := q) still queue nofun
  rw [takeEntry_travel (t := v) guard (by rw [motion]; exact homed) onBed] at closes
  refine ⟨_, q, (congrArg State.close ((congrArg State.restTools issues).trans stays)).trans closes, issued.marks, ?_,
    queue, rfl⟩
  show v.cycle.state = _
  rw [cycle]

end

/-! ### The state in which a result is acted on -/

section
variable {s : State} {r : Rect} (rest : s.atRest) (queue : s.motion.queue = [.search r]) (mu : MarkUnit)

include queue in
theorem queue_searched : (s.searched mu).motion.queue = [] := by
  show s.motion.queue.tail = []
  rw [queue]
  rfl

theorem inReadying_searched (measuring : s.cycle.state = .measuring) (phase : s.cycle.phase = .readying) :
    (s.searched mu).inReadying = true := inReadying_iff.mpr ⟨measuring, phase⟩

end

section
variable (u : State) (row : Nat) (side : Side) (m : Mark) (rect : Rect)

theorem cycle_searching : (u.searching row side m rect).travels.cycle = u.cycle := rfl

theorem marks_searching : (u.searching row side m rect).travels.marks = u.marks.tried row side m rect := rfl

theorem queue_searching : (u.searching row side m rect).travels.motion.queue = [.search rect] := rfl

theorem executing_searching : (u.searching row side m rect).travels.motion.executing = true := rfl

end

theorem cycle_searched (s : State) (mu : MarkUnit) : (s.searched mu).cycle = s.cycle := rfl

theorem marks_searched (s : State) (mu : MarkUnit) : (s.searched mu).marks = mu := rfl

/-- One try of a mark is the same whatever was in flight (R56). -/
theorem tried_landed (mu : MarkUnit) (row : Nat) (side : Side) (m : Mark) (rect : Rect) :
    ({ mu with flight := none } : MarkUnit).tried row side m rect = mu.tried row side m rect := by
  unfold MarkUnit.tried MarkUnit.setMark
  dsimp only
  cases mu.rows[row]? <;> rfl

/-- A mark's seam deviation squared, said with whole numbers (R60). -/
theorem seamDevSq_eq (pend : SeamPending) (m : Mark) : (seamDevSq pend m).map Int.ofNat =
    match m.previous, m.measured with
    | some q, some now => if q.window + 1 = pend.window then
        some ((now.pos.x - q.pos.x) ^ 2 + (now.pos.y - (q.pos.y - pend.advance)) ^ 2) else none
    | _, _ => none := by
  unfold seamDevSq
  cases m.previous with
  | none => rfl
  | some q =>
    cases m.measured with
    | none => rfl
    | some now =>
      dsimp only
      rw [distSq_comm]
      split
      · exact congrArg some (distSq_eq ..)
      · rfl

theorem state_of_firstIn {mu : MarkUnit} {st : MarkState} {i : Nat} {side : Side} {m : Mark}
    (first : mu.firstIn st = some (i, side)) (mark : mu.mark i side = some m) : m.state = st := by
  unfold MarkUnit.firstIn at first
  split at first
  · have passes := List.find?_some first
    rw [decide_eq_true_eq, mark] at passes
    exact Option.some.inj passes
  · exact nomatch first

/-- The outcome of a command whose completion and close are known. -/
theorem next_of_outcome {t v w : State} (after : t = v) (closes : v.restTools.close = w) :
    (Host.Outcome.next t.restTools.close : Host.Outcome State Fault Refusal) = .next w := by
  rw [after, closes]

section
variable {s : State} {r : Rect} {f : SearchInFlight} {row : MarkRow} (rest : s.atRest)
  (queue : s.motion.queue = [.search r]) (flight : s.marks.flight = some f)
  (exists_ : s.marks.rows[f.row]? = some row)
include rest queue flight exists_

theorem exec_report_found {x y : Rat} (inside : r.contains x y = true) : exec (.markSensorReport x y) s = .next
    (((s.searched (s.marks.readAt f (row.get f.side) (roundedCentre x y) s.cycle.pointer)).afterSearch none
      State.searchNow).restTools.close) := by
  rw [exec_report_inside rest queue inside, searchCompletes_found flight exists_]

theorem exec_scanEnd_once (unread : (row.get f.side).state = .unread) (first : (row.get f.side).attempts = 1) :
    exec .searchScanEnd s = .next
      (((s.searched { s.marks with flight := none }).afterSearch none State.searchNow).restTools.close) := by
  rw [exec_searchScanEnd rest queue, searchCompletes_once flight exists_ unread first]

theorem exec_scanEnd_twice (second : (row.get f.side).attempts = 2) : exec .searchScanEnd s = .next
    (((s.searched (s.marks.missedAt f (row.get f.side))).afterSearch (some (f.row, f.side))
      State.searchNow).restTools.close) := by
  rw [exec_searchScanEnd rest queue, searchCompletes_twice flight exists_ second]

end

/-! ### A mark found with nothing pending, and one missed at its first attempt -/

/-- The sensor reports a mark's centre in the readying, nothing pending (R57, R124). -/
structure State.Finds (s : State) (x y : Rat) (r : Rect) (f : SearchInFlight) (row : MarkRow) (pos : BedPos) :
    Prop where
  rest : s.atRest
  queue : s.motion.queue = [.search r]
  inside : r.contains x y = true
  rounds : roundedCentre x y = pos
  flight : s.marks.flight = some f
  exists_ : s.marks.rows[f.row]? = some row
  measuring : s.cycle.state = .measuring
  phase : s.cycle.phase = .readying
  going : s.cycle.stopPending = false
  quiet : s.suspendPending = false

/-- The mark recorded READ at the position found (R57). -/
def State.found (s : State) (f : SearchInFlight) (row : MarkRow) (pos : BedPos) : State :=
  s.searched (s.marks.readAt f (row.get f.side) pos s.cycle.pointer)

section
variable {s : State} {x y : Rat} {r : Rect} {f : SearchInFlight} {row : MarkRow} {pos : BedPos}
  (finds : s.Finds x y r f row pos)
include finds

theorem empty_found : (s.found f row pos).motion.queue = [] := queue_searched finds.queue _

theorem readying_found : (s.found f row pos).inReadying = true := inReadying_searched _ finds.measuring finds.phase

theorem exec_finds : exec (.markSensorReport x y) s = .next (s.found f row pos).searchNow.restTools.close := by
  have found := exec_report_found finds.rest finds.queue finds.flight finds.exists_ finds.inside
  rw [finds.rounds] at found
  exact found.trans (next_of_outcome (afterSearch_goesOn (s := s.found f row pos) (readying_found finds) finds.going
    finds.quiet) rfl)

theorem finds_searches {i : Nat} {side : Side} {m : Mark} {rect : Rect} (shut : s.guardOpen = false)
    (homed : s.motion.homed = true) (next : (s.found f row pos).marks.firstIn .unread = some (i, side))
    (mark : (s.found f row pos).marks.mark i side = some m)
    (clipped : clipToBed (searchSquare s.marks.searchSize m.attempts
      ((s.found f row pos).marks.searchCentre s.nest.params s.cycle.pointer i side)) = some rect) :
    exec (.markSensorReport x y) s = .next ((s.found f row pos).searching i side m rect).travels := by
  have size : (s.found f row pos).marks.searchSize = s.marks.searchSize :=
    (congrArg MarkUnit.searchSize (readAt_eq finds.exists_ (row.get f.side) pos s.cycle.pointer)).trans rfl
  rw [← size] at clipped
  have searches := searchFrom_places (s := s.found f row pos) State.issueNow 2 (readying_found finds) finds.going next
    mark clipped (empty_found finds)
  exact (exec_finds finds).trans (next_of_outcome searches
    (close_searches (u := s.found f row pos) rfl finds.rest.2 shut homed i side m clipped))

/-- A hold that ends the readying: what it leaves (R62, R98). -/
theorem finds_holds {v : State} {reason : HoldReason} {detail : List Byte} (cycle : v.cycle = s.cycle)
    (bed : v.bed = s.bed) (link : v.link = s.link) (motion : v.motion = (s.found f row pos).motion)
    (holds : (s.found f row pos).searchNow = v.enterHeld reason detail) :
    ∃ t, exec (.markSensorReport x y) s = .next t ∧ (t.cycle.state = .held ∧ t.cycle.hold = some reason ∧
      t.cycle.reasons = ⟨false, false, false⟩ ∧ t.motion.queue = [] ∧ t.bed.beacon = true ∧
      t.bed.zones = s.bed.zones ∧ t.link = s.link.queueNotice (heldNotice reason s.cycle.pointer detail)) ∧
      t.marks = v.marks := by
  have empty : v.motion.queue = [] := by
    rw [motion]
    exact empty_found finds
  have closes := close_held (u := v) empty (by rw [motion]; rfl) (by rw [link]; exact finds.rest.2) reason detail
  refine ⟨_, (exec_finds finds).trans (next_of_outcome holds closes), ⟨rfl, rfl, rfl, empty, rfl, ?_, ?_⟩, rfl⟩
  · show v.bed.zones = _
    rw [bed]
  · show v.link.queueNotice (heldNotice reason v.cycle.pointer detail) = _
    rw [link, cycle]

section
variable (none_ : (s.found f row pos).marks.firstIn .unread = none)
include none_

theorem searchNow_found : (s.found f row pos).searchNow = (s.found f row pos).checks State.issueNow :=
  searchNow_checks (readying_found finds) finds.going none_

variable {sp : Span} (fixed : s.marks.span = some sp) (some_ : sp.first < sp.last) (least : sp.first ≤ f.row)
  (most : f.row ≤ sp.last)

omit none_ in
include fixed some_ least most in
theorem not_spanUsable_found : (s.found f row pos).marks.spanUsable = false :=
  not_spanUsable_readAt finds.exists_ fixed some_ least most ..

end

end

section
variable {s : State} {r : Rect} {f : SearchInFlight} {m : Mark} {rect : Rect} (rest : s.atRest)
  (queue : s.motion.queue = [.search r]) (flight : s.marks.flight = some f)
  (mark : s.marks.mark f.row f.side = some m) (next : s.marks.firstIn .unread = some (f.row, f.side))
  (first : m.attempts = 1) (measuring : s.cycle.state = .measuring) (phase : s.cycle.phase = .readying)
  (going : s.cycle.stopPending = false) (quiet : s.suspendPending = false) (shut : s.guardOpen = false)
  (homed : s.motion.homed = true)
  (clipped : clipToBed (searchSquare s.marks.searchSize 1
    (s.marks.searchCentre s.nest.params s.cycle.pointer f.row f.side)) = some rect)
include rest queue flight mark next first measuring phase going quiet shut homed clipped

/-- A first attempt that finds nothing leads to the second in the double square (R56, R57). -/
theorem scanEnd_searches : exec .searchScanEnd s =
    .next ((s.searched { s.marks with flight := none }).searching f.row f.side m rect).travels := by
  obtain ⟨row, exists_, rfl⟩ := Option.map_eq_some_iff.mp mark
  have once := exec_scanEnd_once rest queue flight exists_ (state_of_firstIn next mark) first
  rw [← first] at clipped
  generalize landed : ({ s.marks with flight := none } : MarkUnit) = mu at *
  have goesOn := afterSearch_goesOn (s := s.searched mu) (goOn := State.searchNow)
    (inReadying_searched mu measuring phase) going quiet
  have searches := searchFrom_places (s := s.searched mu) (row := f.row) (side := f.side) (m := row.get f.side)
    (rect := rect) State.issueNow 2 (inReadying_searched mu measuring phase) going
    (by rw [← next, ← landed]; rfl) (by rw [← mark, ← landed]; rfl) (by rw [← clipped, ← landed]; rfl)
    (queue_searched queue mu)
  exact once.trans (next_of_outcome (goesOn.trans searches)
    (close_searches (u := s.searched mu) rfl rest.2 shut homed f.row f.side (row.get f.side) clipped))

end

end Sys2Proof.Machine

/-! A search reads its mark or misses it: the statement (R56, R57, R60 to R62, R97, R98, R124). -/

namespace Sys2Proof.Machine

/-- Settles O49. -/
theorem searchReadsOrMissesMark : Obligations.SearchReadsOrMissesMark := by
  refine ⟨fun s x y r rest safe queue => ?_, fun s rest safe => ?_,
    fun s x y r f row pos sp rest safe queue x0 x1 y0 y1 atX atY flight exists_ measuring phase going quiet shut homed
      fixed some_ least most => ?_,
    fun s r f m rect rest safe queue flight mark next first measuring phase going quiet shut homed clipped => ?_,
    fun mu sp fixed => ?_, fun mu sp pend row fixed pending exists_ => ?_, fun mu lp sp fixed => ?_,
    fun lp tol l r l' r' small wide high => ?_⟩
  · intro inside
    refine ⟨fun outside => exec_report_outside rest queue (contains_iff.not.mpr outside),
      fun f row within flight exists_ measuring phase going pending => ?_⟩
    let u := s.searched (s.marks.readAt f (row.get f.side) (roundedCentre x y) s.cycle.pointer)
    have suspends := next_of_outcome (afterSearch_suspends (s := u) (goOn := State.searchNow)
      (inReadying_searched _ measuring phase) going pending)
      (close_suspended (u := u) (queue_searched queue _) rfl rest.2 .continue)
    have marks : u.marks = _ := readAt_eq exists_ (row.get f.side) (roundedCentre x y) s.cycle.pointer
    refine ⟨_, roundedCentre x y, (exec_report_found rest queue flight exists_ (contains_iff.mpr within)).trans
      suspends, roundsTo_num x, roundsTo_num y,
      congrArg MarkUnit.rows marks,
      fun i near below => unchecked_readAt exists_ _ _ _ near below, congrArg MarkUnit.flight marks,
      queue_searched queue u.marks, rfl, rfl, rfl, rfl⟩
  · refine ⟨exec_searchScanEnd_idle rest, fun r f row queue flight exists_ unread measuring phase going =>
      ⟨fun first pending => ?_, fun second => ?_⟩⟩
    · let u := s.searched { s.marks with flight := none }
      have suspends := next_of_outcome (afterSearch_suspends (s := u) (goOn := State.searchNow)
        (inReadying_searched _ measuring phase) going pending)
        (close_suspended (u := u) (queue_searched queue _) rfl rest.2 .continue)
      exact ⟨_, (exec_scanEnd_once rest queue flight exists_ unread first).trans suspends, rfl,
        queue_searched queue u.marks, rfl, rfl⟩
    · let u := s.searched (s.marks.missedAt f (row.get f.side))
      have holds := next_of_outcome (afterSearch_missed (s := u) (goOn := State.searchNow)
        (inReadying_searched _ measuring phase) going f.row f.side)
        (close_held (u := u) (queue_searched queue _) rfl rest.2 .markMissed [u8 f.row, u8 f.side.code])
      refine ⟨_, (exec_scanEnd_twice rest queue flight exists_ second).trans holds,
        rows_setMark (mu := { s.marks with flight := none }) exists_ f.side _, ?_, queue_searched queue u.marks, rfl,
        rfl, rfl, rfl, rfl⟩
      show (MarkUnit.setMark _ _ _ _).flight = none
      unfold MarkUnit.setMark
      split <;> rfl
  · intro lp k mu checked held
    have finds : s.Finds x y r f row pos := ⟨rest, queue, contains_iff.mpr ⟨x0, x1, y0, y1⟩, roundedCentre_eq atX atY,
      flight, exists_, measuring, phase, going, quiet⟩
    refine ⟨fun i side m rect next mark clipped =>
      ⟨_, finds_searches finds shut homed next mark clipped, (cycle_searching ..).trans (cycle_searched ..),
        queue_searching .., executing_searching .., marks_searching ..⟩, fun none_ stand => ?_⟩
    have checks := searchNow_found finds none_
    have due := not_spanUsable_found finds fixed some_ least most
    refine ⟨fun d side fails => finds_holds (v := s.found f row pos) finds rfl rfl rfl rfl
        (checks.trans (checks_seam stand due fails)),
      fun band kind ppm passes fails => finds_holds (v := (s.found f row pos).checked) finds rfl rfl rfl rfl
        (checks.trans (checks_geometry stand due passes fails)),
      fun w target passes fits planned travel => ?_⟩
    have ready := checks.trans (checks_ready (onReady := State.issueNow) stand due passes fits)
    obtain ⟨t, q, closes, marks, state, front, executing⟩ := close_ready (u := (s.found f row pos).checked.cutting)
      (empty_found finds) rfl shut homed planned travel going
    exact ⟨t, (exec_finds finds).trans (next_of_outcome ready closes), state, by rw [front]; rfl, executing, marks⟩
  · refine ⟨_, scanEnd_searches rest queue flight mark next first measuring phase going quiet shut homed clipped,
      (cycle_searching ..).trans (cycle_searched ..), queue_searching .., executing_searching .., ?_⟩
    refine ((marks_searching ..).trans (tried_landed ..)).trans ?_
    unfold MarkUnit.tried
    rw [first]
  · exact ⟨firstIn_iff fixed, fun lp k i side m q below within mark measured =>
      searchCentre_above fixed below within mark measured lp k, searchCentre_first fixed⟩
  · intro deviation
    have squares (side : Side) (d : Int) :
        deviation side = some d ↔ ∃ n, seamDevSq pend (row.get side) = some n ∧ (n : Int) = d := by
      have same : deviation side = _ := (seamDevSq_eq pend (row.get side)).symm
      rw [same, Option.map_eq_some_iff]
      rfl
    refine ⟨(seamFailure_none_iff fixed pending exists_).trans ⟨fun h side d is => ?_, fun h side n is => ?_⟩,
      fun d side fails => ?_⟩
    · obtain ⟨n, dev, rfl⟩ := (squares side d).mp is
      exact_mod_cast h side n dev
    · exact_mod_cast h side n ((squares side n).mpr ⟨n, is, rfl⟩)
    · obtain ⟨here, above, greatest⟩ := seamFailure_some fixed pending exists_ fails
      refine ⟨(squares side d).mpr ⟨d, here, rfl⟩, above, fun other e is => ?_⟩
      obtain ⟨n, dev, rfl⟩ := (squares other e).mp is
      exact_mod_cast greatest other n dev
  · exact ⟨fun i below => bands_checkSpan fixed lp below, rows_checkSpan mu lp,
      fun i a b la ra lb rb lower upper isLa isRa isLb isRb => checkBand_measured lower upper isLa isRa isLb isRb lp,
      fun i kind ppm => firstFailure_iff fixed⟩
  · intro across square low high' widthOk heightOk ppmOf g
    obtain ⟨ok, lower, upper, left, right⟩ := geometryOf_cases small wide high l r l' r'
    exact ⟨ok, fun a => ⟨_, lower a, roundsTo_width wide l r⟩, fun a b => ⟨_, upper a b, roundsTo_width wide l' r'⟩,
      fun a b c => ⟨_, left a b c, rootRounds_height high l l'⟩,
      fun a b c d => ⟨_, right a b c d, rootRounds_height high r r'⟩, rootRounds_roundSqrtDiv⟩

end Sys2Proof.Machine

/-! What a correction, a pass and a window completion compute (R64, R65, R82, R88). -/

namespace Sys2Proof.Machine

/-! ### The band of a point and its correction (R64, R65) -/

/-- The band of a media point: the rows it lies between, the upper row of the span included (R64). -/
theorem bandOf_iff {lp : LayoutParams} (pitch : 0 < lp.markPitch) {sp : Span} {v i : Nat} : bandOf lp sp v = some i ↔
    (sp.first ≤ i ∧ i < sp.last ∧ lp.lead + i * lp.markPitch ≤ v ∧
      (v < lp.lead + (i + 1) * lp.markPitch ∨ (v = lp.lead + (i + 1) * lp.markPitch ∧ i + 1 = sp.last))) := by
  unfold bandOf
  by_cases before : v < lp.lead
  · rw [if_pos before]
    exact ⟨fun h => (nomatch h), fun ⟨_, _, least, _⟩ => absurd least (by omega)⟩
  obtain ⟨d, rfl⟩ := Nat.exists_eq_add_of_le (Nat.not_lt.mp before)
  rw [if_neg before, Nat.add_sub_cancel_left]
  dsimp only
  generalize index : (if d % lp.markPitch = 0 ∧ d / lp.markPitch = sp.last then d / lp.markPitch - 1
    else d / lp.markPitch) = j
  constructor
  · intro h
    split at h
    · rename_i inSpan
      obtain ⟨least, most, _⟩ := inSpan
      obtain rfl := Option.some.inj h
      refine ⟨least, most, ?_⟩
      have whole := Nat.div_add_mod' d lp.markPitch
      have small := Nat.mod_lt d pitch
      have step : (j + 1) * lp.markPitch = j * lp.markPitch + lp.markPitch := Nat.succ_mul ..
      split at index
      · rename_i top
        obtain ⟨exact_, last⟩ := top
        rw [show d / lp.markPitch = j + 1 by omega] at whole last
        exact ⟨by omega, .inr ⟨by omega, last⟩⟩
      · rw [index] at whole
        exact ⟨by omega, .inl (by omega)⟩
    · exact nomatch h
  · rintro ⟨least, most, low, high⟩
    have upper : (i + 1) * lp.markPitch ≤ sp.last * lp.markPitch := Nat.mul_le_mul_right _ most
    have same : j = i := by
      rw [← index]
      rcases high with inside | ⟨top, last⟩
      · have here : d / lp.markPitch = i := Nat.div_eq_of_lt_le (by omega) (by omega)
        rw [here, if_neg (fun h => absurd h.2 (by omega))]
      · have at_ : d = (i + 1) * lp.markPitch := by omega
        rw [at_, Nat.mul_mod_left, Nat.mul_div_cancel _ pitch, if_pos ⟨rfl, last⟩, Nat.add_sub_cancel]
    rw [same, if_pos ⟨least, most, by omega⟩]

/-- The corrected position of a point in a band whose four marks are measured (R65). -/
theorem correctIn_measured {mu : MarkUnit} {i : Nat} {a b : MarkRow} {la ra lb rb : Measured}
    (lower : mu.rows[i]? = some a) (upper : mu.rows[i + 1]? = some b) (isLa : a.left.measured = some la)
    (isRa : a.right.measured = some ra) (isLb : b.left.measured = some lb) (isRb : b.right.measured = some rb)
    (lp : LayoutParams) (pt : Vertex) : correctIn lp mu i pt = some
      ⟨blend lp.spacing lp.markPitch ((pt.u : Int) - lp.uLeft) ((pt.v : Int) - lp.rowV i) la.pos.x ra.pos.x lb.pos.x
          rb.pos.x,
        blend lp.spacing lp.markPitch ((pt.u : Int) - lp.uLeft) ((pt.v : Int) - lp.rowV i) la.pos.y ra.pos.y lb.pos.y
          rb.pos.y⟩ := by
  obtain ⟨⟨_, _, _, _⟩, ⟨_, _, _, _⟩⟩ := a
  obtain ⟨⟨_, _, _, _⟩, ⟨_, _, _, _⟩⟩ := b
  dsimp only at isLa isRa isLb isRb
  subst isLa isRa isLb isRb
  unfold correctIn MarkUnit.bandMarks
  rw [lower, upper]

section
variable {s : State} {pt : Vertex}

theorem correct_unspanned (none_ : s.marks.span = none) : s.correct pt = none := by
  unfold State.correct
  rw [none_]

variable {sp : Span} (fixed : s.marks.span = some sp)
include fixed

theorem correct_outside (outside : bandOf s.nest.params sp pt.v = none) : s.correct pt = none := by
  unfold State.correct
  rw [fixed]
  dsimp only
  rw [outside]

theorem correct_inside {i : Nat} (inside : bandOf s.nest.params sp pt.v = some i) :
    s.correct pt = if s.marks.usable i then correctIn s.nest.params s.marks i pt else none := by
  unfold State.correct
  rw [fixed]
  dsimp only
  rw [inside]

end

/-! ### Forward and backward passes (R82) -/

section
variable {it : Item} {pass : Nat}

theorem forward_iff : it.forward pass = true ↔ it.entry = none ∨ pass % 2 = 0 := by
  unfold Item.forward
  rw [Bool.or_eq_true, Option.isNone_iff_eq_none, decide_eq_true_eq]

theorem passes_forward (forward : it.entry = none ∨ pass % 2 = 0) (n : Nat) :
    it.pointAfter pass n = n ∧ it.segmentAfter pass n = n :=
  ⟨if_pos (forward_iff.mpr forward), if_pos (forward_iff.mpr forward)⟩

theorem passes_backward (open_ : it.entry ≠ none) (odd : pass % 2 = 1) (n : Nat) :
    it.pointAfter pass n = it.segments - n ∧ it.segmentAfter pass n = it.segments - 1 - n := by
  have backward : ¬it.forward pass = true := forward_iff.not.mpr (not_or.mpr ⟨open_, by omega⟩)
  exact ⟨if_neg backward, if_neg backward⟩

end

/-! ### The completion of a window (R88) -/

theorem toCut_atWindowDone {lp : LayoutParams} {k : Nat} {p : Panel} :
    (p.atWindowDone lp k).lock = p.lock ∧ (p.atWindowDone lp k).placement = p.placement ∧
      (p.atWindowDone lp k).lastWindow lp = p.lastWindow lp ∧
      ((p.atWindowDone lp k).state = .placed ∨ (p.atWindowDone lp k).state = .cutting →
        p.state = .placed ∨ p.state = .cutting) := by
  unfold Panel.atWindowDone
  split
  · rename_i cutting
    have state : p.state = .cutting := of_decide_eq_true (Bool.and_eq_true_iff.mp cutting).1
    split
    · split
      · exact ⟨rfl, rfl, rfl, fun _ => .inr state⟩
      · exact ⟨rfl, rfl, rfl, id⟩
    · exact ⟨rfl, rfl, rfl, id⟩
  · exact ⟨rfl, rfl, rfl, id⟩

theorem atWindowDone_counts {lp : LayoutParams} {k n : Nat} {p : Panel} (cutting : p.state = .cutting)
    (met : p.meets lp k = true) (left : p.windowsLeft = some n) : p.atWindowDone lp k =
      if n ≤ 1 then { p with state := .cut, windowsLeft := none } else { p with windowsLeft := some (n - 1) } := by
  unfold Panel.atWindowDone
  rw [if_pos (Bool.and_eq_true_iff.mpr ⟨decide_eq_true cutting, met⟩), left]

theorem atWindowDone_keeps {lp : LayoutParams} {k : Nat} {p : Panel}
    (other : p.state ≠ .cutting ∨ ¬p.meets lp k = true) : p.atWindowDone lp k = p := by
  unfold Panel.atWindowDone
  refine if_neg fun h => ?_
  obtain ⟨cutting, met⟩ := Bool.and_eq_true_iff.mp h
  exact other.elim (fun h => h (of_decide_eq_true cutting)) (fun h => h met)

theorem cutAtDone_ascends (s : State) (k : Nat) : (s.cutAtDone k).Pairwise (· < ·) :=
  (List.pairwise_lt_finRange 96).filter _

section
variable {s : State}

theorem panel_counted (i : Slot) : s.counted.panel i = (s.panel i).atWindowDone s.nest.params s.cycle.pointer :=
  Table.get_map ..

theorem mem_cutAtDone {i : Slot} : i ∈ s.cutAtDone s.cycle.pointer ↔
    ((s.panel i).state ≠ .cut ∧ (s.counted.panel i).state = .cut) := by
  unfold State.cutAtDone
  rw [List.mem_filter, panel_counted, Bool.and_eq_true, bne_iff_ne, decide_eq_true_eq]
  exact and_iff_right (List.mem_finRange i)

theorem doneBase_again {w : Worklist} (planned : s.plan.worklist = some w) (completed : w.completed = true) :
    s.doneBase = s := by
  have again : s.alreadyDone = true := by
    unfold State.alreadyDone
    rw [planned]
    exact completed
  unfold State.doneBase
  rw [again]
  rfl

/-- Whether panels are left to cut behind the window (R88). -/
def State.moreToCut (s : State) : Bool :=
  anyToCutFrom s.nest.params s.doneBase.store.panels.cells (s.cycle.pointer + 1)

/-- The notices of a window's completion behind those of its panels (R88). -/
def State.doneNotices (s : State) : List OutRecord :=
  windowDoneNotice s.cycle.pointer :: if s.moreToCut then [] else [runDoneNotice s.cycle.pointer]

theorem completeWindow_said (s : State) : s.completeWindow =
    (s.doneBase.withLink { s.doneBase.link with formed := s.doneBase.link.formed ++ s.doneNotices }, s.moreToCut) := by
  rw [completeWindow_eq]
  unfold State.doneNotices
  cases more : s.moreToCut with
  | true => exact if_pos more
  | false =>
    refine (if_neg (Bool.eq_false_iff.mp more)).trans ?_
    show (s.doneBase.withLink { s.doneBase.link with formed := (s.doneBase.link.formed ++ [_]) ++ [_] }, false) = _
    rw [List.append_assoc]
    rfl

end

end Sys2Proof.Machine

/-! The completion of a planner entry in CUTTING: what issuing does to it, the cursor taken, the next entry executing
(R83, R86, R87, R103, R120 to R123). -/

namespace Sys2Proof.Machine

/-! ### The completion dispatched -/

section
variable {s : State} (rest : s.atRest)
include rest

theorem exec_travelCompletion {p : BedPos} {more : List Entry} (queue : s.motion.queue = .travel .planner p :: more) :
    exec .moveCompletion s = .next ((s.arrived p).plannerCompletion none).restTools.close := by
  rw [exec_moveCompletion rest]
  unfold State.moveCompletes
  rw [executingEntry_of_queue rest.1 queue]
  rfl

theorem exec_cutCompletion {tool : Tool} {target : BedPos} {ref : CutRef} {more : List Entry}
    (queue : s.motion.queue = .cut tool target (some ref) :: more) :
    exec .moveCompletion s = .next ((s.arrived target).plannerCompletion (some ref)).restTools.close := by
  rw [exec_moveCompletion rest]
  unfold State.moveCompletes
  rw [executingEntry_of_queue rest.1 queue]
  rfl

end

theorem queue_arrived {s : State} {e : Entry} {more : List Entry} (queue : s.motion.queue = e :: more)
    (target : BedPos) : (s.arrived target).motion.queue = more := by
  show s.motion.queue.tail = more
  rw [queue]
  rfl

/-! ### The next entry executing -/

/-- A CUT taken: it executes at its tool's speed, its tool lowered at its pressure, the other raised (R120 to R122). -/
def State.cuts (tool : Tool) (s : State) : State :=
  { s with
    motion := { s.motion with
      executing := true, speed := some (if tool = .kiss then s.motion.params.kissSpeed else s.motion.params.thruSpeed)
      kiss := if tool = .kiss then .lowered else .raised, thru := if tool = .thru then .lowered else .raised }
    bed := { s.bed with
      toolKiss := if tool = .kiss then some s.motion.params.kissPressure else none
      toolThru := if tool = .thru then some s.motion.params.thruPressure else none } }

theorem takeEntry_cut {t : State} {tool : Tool} {target : BedPos} {ref : Option CutRef} (shut : t.guardOpen = false)
    (homed : t.motion.homed = true) (onBed : target.onBed = true) :
    t.takeEntry (.cut tool target ref) = t.cuts tool := by
  have within : limitFailure t.motion.homed (.cut tool target ref) = none := by
    show (if t.motion.homed && target.onBed then none else some target) = none
    rw [homed, onBed]
    rfl
  rw [takeEntry_passes shut within]
  cases tool <;> rfl

/-- The next CUT executes at the close of a completion (R120, R123). -/
theorem close_cuts {t : State} {tool : Tool} {target : BedPos} {ref : Option CutRef} {more : List Entry}
    (idle : t.motion.executing = false) (queue : t.motion.queue = .cut tool target ref :: more)
    (shut : t.guardOpen = false) (homed : t.motion.homed = true) (onBed : target.onBed = true)
    (quiet : t.link.formed = []) : t.restTools.close = t.cuts tool := by
  have stays : t.restTools = t := if_neg (by rw [queue]; exact Bool.false_ne_true)
  rw [stays, close_takes idle queue nofun, takeEntry_cut shut homed onBed]
  exact flush_quiet (s := t.cuts tool) quiet

/-- The safe point of a completion with nothing pending (R103, R111). -/
theorem cutSafePoint_quiet {s : State} (going : s.cycle.stopPending = false) (quiet : s.suspendPending = false) :
    s.cutSafePoint = s := by
  have unasked : s.cycle.reasons.request = false := by
    cases request : s.cycle.reasons.request with
    | false => rfl
    | true =>
      rw [suspendPending_of_request request] at quiet
      exact nomatch quiet
  have stays : s.suspendIfDrained = s := by
    unfold State.suspendIfDrained
    rw [quiet]
    rfl
  unfold State.cutSafePoint
  rw [going, unasked, stays]
  exact ite_self _

/-! ### What issuing does -/

section
variable {s : State} {w : Worklist} (planned : s.plan.worklist = some w)
include planned

theorem withPlan_self : s.withPlan { s.plan with worklist := some w } = s :=
  congrArg s.withPlan (withWorklist_self planned)

/-- The planner at the end of its list places nothing (R83). -/
theorem issueOne_ended (none_ : w.issue.item = none) : s.issueOne = (s, .ended) := by
  have same : w.passDone = w := by
    unfold Worklist.passDone
    rw [none_]
  unfold State.issueOne
  rw [planned]
  dsimp only
  rw [same, none_]
  exact congrArg (·, IssueStop.ended) (withPlan_self planned)

/-- Issuing whose first step places nothing leaves the state (R83). -/
theorem issue_stands {stop : IssueStop} (one : s.issueOne = (s, stop)) (notPlaced : stop ≠ .placed) :
    ∃ stop', s.issue = (s, stop') ∧ (stop ≠ .refused → stop' ≠ .refused) := by
  unfold State.issue
  split
  · exact ⟨.ended, rfl, fun _ => nofun⟩
  · rw [planned]
    dsimp only
    split
    · exact ⟨.stopped, rfl, fun _ => nofun⟩
    · cases s.motion.freePlaces with
      | zero => exact ⟨.placed, rfl, fun _ => nofun⟩
      | succ n =>
        unfold State.issueLoop
        rw [one]
        cases stop with
        | placed => exact absurd rfl notPlaced
        | ended => exact ⟨.ended, rfl, id⟩
        | stopped => exact ⟨.stopped, rfl, id⟩
        | refused => exact ⟨.refused, rfl, id⟩

/-- A correction refused at the first step of issuing (R83). -/
theorem issue_refused (going : s.cycle.stopPending = false) (free : w.stopped = false)
    (room : s.motion.queue.length < 32) (one : s.issueOne = (s, .refused)) : s.issue = (s, .refused) := by
  have places : s.motion.freePlaces = (31 - s.motion.queue.length) + 1 := by
    unfold MotionUnit.freePlaces Config.motionPlaces
    omega
  unfold State.issue
  rw [going, if_neg (by decide), planned]
  dsimp only
  rw [free, if_neg (by decide), places]
  unfold State.issueLoop
  rw [one]

variable {i : Nat} {it : Item} {pass n : Nat} {reported : Bool}
  (pointed : w.issue = ⟨some i, pass, n, false, reported⟩)

include pointed in
theorem issueItem_refused (refuses : s.correct (s.itemPoint w it (it.pointAfter pass (n + 1))) = none) :
    s.issueItem w i it = (s, .refused) := by
  have noTravel : w.issue.travelDue = false := by rw [pointed]
  have cut : s.issueItem w i it = s.issueCut w i it := by
    unfold State.issueItem
    rw [noTravel]
    rfl
  rw [cut]
  unfold State.issueCut
  rw [pointed]
  dsimp only
  rw [refuses]
  exact congrArg (·, IssueStop.refused) (withPlan_self planned)

omit planned in
include pointed in
/-- The CUT of the next segment placed, the issue pointer behind it (R83). -/
theorem issueItem_cut {target : BedPos} (room : s.motion.queue.length < 32)
    (answers : s.correct (s.itemPoint w it (it.pointAfter pass (n + 1))) = some target) : s.issueItem w i it =
      ((s.withPlan { s.plan with worklist := some { w with issue := w.afterCut i it pass n } }).behind
        (.cut it.tool target (some ⟨i, pass, it.segmentAfter pass n⟩)), .placed) := by
  have noTravel : w.issue.travelDue = false := by rw [pointed]
  have cut : s.issueItem w i it = s.issueCut w i it := by
    unfold State.issueItem
    rw [noTravel]
    rfl
  rw [cut]
  unfold State.issueCut
  rw [pointed]
  dsimp only
  rw [answers]
  exact congrArg (·, IssueStop.placed) (if_pos room)

end

/-- The issue pointer behind the last segment of an item: the next item still to cut (R83). -/
theorem afterCut_next {w : Worklist} {i j pass n : Nat} {it b : Item} (lastSegment : it.segments ≤ n + 1)
    (lastPass : it.passes ≤ pass + 1) (behind : i < j) (item : w.items[j]? = some b) (live : b.live = true)
    (first : ∀ k a, i < k → k < j → w.items[k]? = some a → a.live = false) :
    w.afterCut i it pass n = ⟨some j, b.passDone, b.segDone, true, false⟩ := by
  have next : firstLiveFrom (i + 1) (w.items.drop (i + 1)) = some j := by
    rw [firstLiveFrom_eq_some_iff]
    refine ⟨j - (i + 1), by omega, ⟨b, ?_, live⟩, fun k a less at_ => ?_⟩
    · rw [List.getElem?_drop, show i + 1 + (j - (i + 1)) = j by omega, item]
    · rw [List.getElem?_drop] at at_
      exact first (i + 1 + k) a (by omega) (by omega) at_
  unfold Worklist.afterCut
  rw [if_neg (by omega), if_neg (by omega), next]
  unfold issueAt
  dsimp only
  rw [item]

theorem afterCut_last {w : Worklist} {i pass n : Nat} {it : Item} (lastSegment : it.segments ≤ n + 1)
    (lastPass : it.passes ≤ pass + 1) (none_ : ∀ k a, i < k → w.items[k]? = some a → a.live = false) :
    (w.afterCut i it pass n).item = none := by
  have next : firstLiveFrom (i + 1) (w.items.drop (i + 1)) = none := by
    rw [firstLiveFrom_eq_none_iff]
    intro a member
    obtain ⟨k, at_⟩ := List.getElem?_of_mem member
    rw [List.getElem?_drop] at at_
    exact none_ (i + 1 + k) a (by omega) at_
  unfold Worklist.afterCut
  rw [if_neg (by omega), if_neg (by omega), next]
  rfl

/-- An item start with no breakpoint and no STEP goes on unreported to the host (R84, R102). -/
theorem testItemStart_off {s : State} (w : Worklist) (r : ItemStart) (free : s.cycle.step = false)
    (off : ∀ b, (s.cycle.breakpoints.get b).kind = .off) (quiet : s.suspendPending = false) :
    s.testItemStart w r = (s, true) := by
  have misses (a : BreakAction) : hitBits s.cycle.breakpoints a w r = 0 := hitBits_eq_zero.mpr fun i hit => by
    have hits := hit.2
    unfold Breakpoint.hits at hits
    rw [off i] at hits
    exact nomatch hits
  have cycle : (s.testItemStart w r).1.cycle = s.cycle := by
    rw [cycle_testItemStart, misses, free, Bool.or_false]
    show { s.cycle with
      reasons := { s.cycle.reasons with brk := s.cycle.reasons.brk || false }
      halts := s.cycle.halts ||| 0#4 } = s.cycle
    rw [Bool.or_false, BitVec.or_zero]
  have link : (s.testItemStart w r).1.link = s.link := by rw [link_testItemStart, misses, if_pos rfl]
  have stays : (s.testItemStart w r).1 = s := by rw [rest_testItemStart, cycle, link]
  refine Prod.ext stays ?_
  rw [go_testItemStart, cycle]
  exact congrArg not quiet

end Sys2Proof.Machine

/-! The completion of a planner TRAVEL: the next entry issued, or the window opened again (R83 to R86, log 19). -/

namespace Sys2Proof.Machine

/-! ### The run goes on with the next CUT -/

/-- The planner issues on: another worklist, entries behind the queue (R83). -/
def State.issuedOn (s : State) (v : Worklist) (issued : List Entry) : State :=
  { s with
    plan := { s.plan with worklist := some v }
    motion := { s.motion with queue := s.motion.queue ++ issued } }

theorem issuedOn_nothing {s : State} {w : Worklist} (planned : s.plan.worklist = some w) : s.issuedOn w [] = s := by
  unfold State.issuedOn
  rw [withWorklist_self planned, List.append_nil]

theorem plannerCompletion_travel {a u : State} {stop : IssueStop} (cutting : a.cycle.state = .cutting)
    (issues : a.issue = (u, stop)) : a.plannerCompletion none =
      if decide (stop = .refused) && !u.plannerQueued then u.reopen else u.cutSafePoint := by
  unfold State.plannerCompletion
  rw [if_neg (not_not.mpr cutting)]
  dsimp only
  rw [issues]
  exact if_neg Bool.false_ne_true

/-- A planner TRAVEL under way in CUTTING with a CUT behind it, nothing pending. -/
structure State.TravelEnds (s : State) (p : BedPos) (next : Tool) (target : BedPos) (ref : CutRef) (more : List Entry)
    (w : Worklist) : Prop where
  rest : s.atRest
  cutting : s.cycle.state = .cutting
  queue : s.motion.queue = .travel .planner p :: .cut next target (some ref) :: more
  quiet : s.suspendPending = false
  going : s.cycle.stopPending = false
  homed : s.motion.homed = true
  shut : s.guardOpen = false
  onBed : target.onBed = true
  planned : s.plan.worklist = some w
  free : w.stopped = false

section
variable {s : State} {p target : BedPos} {next : Tool} {ref : CutRef} {more : List Entry} {w : Worklist}
  (ends : s.TravelEnds p next target ref more w)
include ends

theorem queue_travelEnds : (s.arrived p).motion.queue = .cut next target (some ref) :: more :=
  queue_arrived ends.queue p

/-- The completion of a TRAVEL with the planner's entries behind it: the next CUT executes (R83, R120, R123). -/
theorem exec_travelEnds {v : Worklist} {issued : List Entry} {stop : IssueStop}
    (issues : (s.arrived p).issue = ((s.arrived p).issuedOn v issued, stop)) :
    exec .moveCompletion s = .next (((s.arrived p).issuedOn v issued).cuts next) := by
  have queue : ((s.arrived p).issuedOn v issued).motion.queue =
      .cut next target (some ref) :: (more ++ issued) := by
    show (s.arrived p).motion.queue ++ issued = _
    rw [queue_travelEnds ends]
    rfl
  have queued : ((s.arrived p).issuedOn v issued).plannerQueued = true := by
    unfold State.plannerQueued
    rw [queue]
    rfl
  have completes := plannerCompletion_travel (a := s.arrived p) ends.cutting issues
  rw [queued, Bool.not_true, Bool.and_false, if_neg (by decide),
    cutSafePoint_quiet (s := (s.arrived p).issuedOn v issued) ends.going ends.quiet] at completes
  rw [exec_travelCompletion ends.rest ends.queue, completes]
  exact congrArg Host.Outcome.next (close_cuts (t := (s.arrived p).issuedOn v issued) rfl queue ends.shut ends.homed
    ends.onBed ends.rest.2)

/-- Nothing is issued: the next CUT executes over the plan as it stands. -/
theorem exec_travelEnds_stands {stop : IssueStop} (one : (s.arrived p).issueOne = (s.arrived p, stop))
    (notPlaced : stop ≠ .placed) :
    exec .moveCompletion s = .next (((s.arrived p).issuedOn w []).cuts next) := by
  obtain ⟨stop', issues, _⟩ := issue_stands (s := s.arrived p) ends.planned one notPlaced
  rw [← issuedOn_nothing (s := s.arrived p) ends.planned] at issues
  exact exec_travelEnds ends (by rw [← issues, issuedOn_nothing (s := s.arrived p) ends.planned])

/-- One place is free and the first issuing step fills it (R83). -/
theorem exec_travelEnds_places {v : Worklist} {e : Entry} (full : more.length = 30)
    (one : (s.arrived p).issueOne =
      (((s.arrived p).withPlan { s.plan with worklist := some v }).behind e, .placed)) :
    exec .moveCompletion s = .next (((s.arrived p).issuedOn v [e]).cuts next) := by
  have length : (s.arrived p).motion.queue.length = 31 := by
    rw [queue_travelEnds ends, List.length_cons, full]
  have issues := issue_places_first (s := s.arrived p) ends.going ends.planned ends.free (by omega) one
  rw [length] at issues
  exact exec_travelEnds ends issues

end

theorem length_travelEnds {s : State} {p target : BedPos} {next : Tool} {ref : CutRef} {more : List Entry}
    {w : Worklist} (ends : s.TravelEnds p next target ref more w) (full : more.length = 30) :
    (s.arrived p).motion.queue.length < 32 := by
  rw [queue_travelEnds ends, List.length_cons, full]
  decide

theorem issueTravel_answers {s : State} {w : Worklist} {it : Item} {target : BedPos}
    (answers : s.correct (s.itemPoint w it (it.pointAfter w.issue.pass w.issue.issued)) = some target)
    (room : s.motion.queue.length < 32) : s.issueTravel w it = ((s.withPlan { s.plan with
      worklist := some { w with issue := { w.issue with travelDue := false, reported := false } } }).behind
        (.travel .planner target), .placed) := by
  unfold State.issueTravel
  rw [answers]
  exact congrArg (·, IssueStop.placed) (if_pos room)

/-- The TRAVEL to the start of an item whose report goes on at once (R83, R84, R102). -/
theorem issueItem_starts {s : State} {w : Worklist} {i : Nat} {it : Item} {target : BedPos}
    (pointed : w.issue = ⟨some i, it.passDone, it.segDone, true, false⟩) (unpassed : w.startPassed ≠ some i)
    (goes : ∀ r, s.testItemStart w r = (s, true))
    (answers : s.correct (s.itemPoint w it (it.pointAfter it.passDone it.segDone)) = some target)
    (room : s.motion.queue.length < 32) : s.issueItem w i it =
      ((s.withPlan { s.plan with
        worklist := some { w with issue := ⟨some i, it.passDone, it.segDone, false, false⟩ } }).behind
          (.travel .planner target), .placed) := by
  by_cases known : it.passDone ≠ 0 ∨ it.segDone ≠ 0 ∨ w.startPassed = some i
  · rw [issueItem_travel pointed known answers room]
    unfold Worklist.travelled
    rw [if_neg unpassed]
    rfl
  · have due : w.issue.travelDue = true := by rw [pointed]
    have report : w.reportDue i it = true := by
      simp only [not_or, not_not] at known
      obtain ⟨noPass, noSegment, _⟩ := known
      unfold Worklist.reportDue
      rw [noPass, noSegment, pointed]
      simp [unpassed]
    have travels : s.issueItem w i it = s.issueTravel { w with issue := { w.issue with reported := true } } it := by
      unfold State.issueItem
      rw [if_pos due, if_pos report]
      dsimp only
      rw [goes]
    rw [travels, issueTravel_answers (w := { w with issue := { w.issue with reported := true } })
      (by rw [pointed]; exact answers) room, pointed]

end Sys2Proof.Machine

/-! A correction refused with no planner entry queued: the window is opened again (R55, R83, log 19, log 32). -/

namespace Sys2Proof.Machine

theorem atOpening_fresh (k : Nat) (m : Mark) : (m.atOpening k).state = .unread ∧ (m.atOpening k).attempts = 0 := by
  rw [atOpening_eq]
  split
  · rename_i unread
    exact ⟨unread, rfl⟩
  · exact ⟨rfl, rfl⟩

/-- The span of a window starts on a row and ends at or behind it (R52). -/
theorem windowSpan_within {s : State} {sp : Span} (span : s.windowSpan = some sp) :
    sp.first ≤ sp.last ∧ sp.first < s.marks.rows.length := by
  unfold State.windowSpan at span
  extract_lets m first at span
  split at span
  · rename_i within
    obtain rfl := Option.some.inj span
    have below : first < s.marks.rows.length := within
    refine ⟨?_, below⟩
    show first ≤ min (first + m) (s.marks.rows.length - 1)
    omega
  · exact nomatch span

/-- The last planner TRAVEL under way in CUTTING, the CUT behind it refused by its correction (R83). -/
structure State.Refuses (s : State) (p : BedPos) (w : Worklist) (i : Nat) (it : Item) (pass n : Nat)
    (reported : Bool) : Prop where
  rest : s.atRest
  safe : s.cycleSafe = true
  cutting : s.cycle.state = .cutting
  queue : s.motion.queue = [.travel .planner p]
  going : s.cycle.stopPending = false
  homed : s.motion.homed = true
  shut : s.guardOpen = false
  planned : s.plan.worklist = some w
  free : w.stopped = false
  pointed : w.issue = ⟨some i, pass, n, false, reported⟩
  item : w.items[i]? = some it
  live : it.live = true
  refused : s.correct (s.itemPoint w it (it.pointAfter pass (n + 1))) = none

/-- MEASURING in the readying of the window opened again (R83). -/
def State.reopened (s : State) : State := (s.openWindow none).readied

theorem reopen_eq (s : State) : s.reopen = s.reopened.searchFrom (State.issueWith id) 3 := rfl

section
variable {s : State} {p : BedPos} {w : Worklist} {i : Nat} {it : Item} {pass n : Nat} {reported : Bool}
  (refuses : s.Refuses p w i it pass n reported)
include refuses

theorem empty_refuses : (s.arrived p).motion.queue = [] := queue_arrived refuses.queue p

theorem plain_refuses : s.Plain := by
  have state := refuses.cutting
  exact plain_of_safe refuses.safe (by rw [state]; decide) (by rw [state]; decide) (by rw [state]; decide)
    (by rw [state]; decide)

theorem cycle_reopened : (s.arrived p).reopened.cycle =
    { s.cycle with state := .measuring, phase := .readying } := by
  have ⟨hold, taken, timer, _⟩ := plain_refuses refuses
  show { s.cycle with
    state := .measuring, phase := .readying, hold := none, taken := none, settleTimer := none } = _
  rw [← hold, ← taken, ← timer]

theorem exec_refuses : exec .moveCompletion s =
    .next ((s.arrived p).reopened.searchFrom (State.issueWith id) 3).restTools.close := by
  have one : (s.arrived p).issueOne = (s.arrived p, .refused) := by
    rw [issueOne_live (s := s.arrived p) refuses.planned (by rw [refuses.pointed]) refuses.item refuses.live]
    exact issueItem_refused (s := s.arrived p) refuses.planned refuses.pointed refuses.refused
  have issues := issue_refused (s := s.arrived p) refuses.planned refuses.going refuses.free
    (by rw [empty_refuses refuses]; decide) one
  have alone : (s.arrived p).plannerQueued = false := by
    unfold State.plannerQueued
    rw [empty_refuses refuses]
    rfl
  have completes := plannerCompletion_travel (a := s.arrived p) refuses.cutting issues
  rw [alone, Bool.not_false, Bool.and_true, if_pos (by decide), reopen_eq] at completes
  rw [exec_travelCompletion refuses.rest refuses.queue, completes]

/-- The window has rows: its first mark is searched again (R56, R83). -/
theorem exec_refuses_searches {sp : Span} {rect : Rect} (span : s.windowSpan = some sp)
    (clipped : clipToBed (searchSquare s.marks.searchSize 0
      (nominalBed s.nest.params s.cycle.pointer sp.first .left)) = some rect) :
    ∃ m, (s.marks.openWindow s.cycle.pointer (some sp) none).mark sp.first .left = some m ∧ m.attempts = 0 ∧
      exec .moveCompletion s = .next ((s.arrived p).reopened.searching sp.first .left m rect).travels := by
  obtain ⟨some_, below⟩ := windowSpan_within span
  have row := List.getElem?_eq_getElem below
  generalize s.marks.rows[sp.first] = r at row
  obtain ⟨unread, fresh⟩ := atOpening_fresh s.cycle.pointer r.left
  have opened : (s.arrived p).reopened.marks = s.marks.openWindow s.cycle.pointer (some sp) none :=
    congrArg (fun span => s.marks.openWindow s.cycle.pointer span none) span
  have mark : (s.marks.openWindow s.cycle.pointer (some sp) none).mark sp.first .left =
      some (r.left.atOpening s.cycle.pointer) :=
    mark_of_row (mu := s.marks.openWindow s.cycle.pointer (some sp) none)
      (getElem?_mapSpan_inside (Nat.le_refl _) some_ row _) .left
  have first := firstIn_first (mu := s.marks.openWindow s.cycle.pointer (some sp) none) rfl some_ mark unread
  have centre := searchCentre_first (mu := s.marks.openWindow s.cycle.pointer (some sp) none) rfl s.nest.params
    s.cycle.pointer .left
  have square : clipToBed (searchSquare (s.arrived p).reopened.marks.searchSize
      (r.left.atOpening s.cycle.pointer).attempts ((s.arrived p).reopened.marks.searchCentre
        s.nest.params s.cycle.pointer sp.first .left)) = some rect := by
    rw [opened, fresh, centre]
    exact clipped
  have searches := searchFrom_places (s := (s.arrived p).reopened) (row := sp.first) (side := .left) (rect := rect)
    (State.issueWith id) 2 (inReadying_iff.mpr ⟨rfl, rfl⟩) refuses.going (by rw [opened]; exact first)
    (by rw [opened]; exact mark) square (empty_refuses refuses)
  refine ⟨_, mark, fresh, ?_⟩
  rw [exec_refuses refuses, searches]
  exact congrArg Host.Outcome.next (close_searches (u := (s.arrived p).reopened) rfl refuses.rest.2 refuses.shut
    refuses.homed _ _ _ clipped)

/-- The window has no rows: it is ready at once, refuses again, and the planner waits (log 19). -/
theorem exec_refuses_waits (none_ : s.windowSpan = none) : exec .moveCompletion s =
    .next (s.arrived p).reopened.cutting.raiseTools := by
  let b := (s.arrived p).reopened
  have opened : b.marks = s.marks.openWindow s.cycle.pointer none none :=
    congrArg (fun span => s.marks.openWindow s.cycle.pointer span none) none_
  have unspanned : b.marks.span = none := by
    rw [opened]
    rfl
  have nothing (st : MarkState) : b.marks.firstIn st = none := by
    unfold MarkUnit.firstIn
    rw [unspanned]
  have usable : b.marks.spanUsable = true := by
    unfold MarkUnit.spanUsable
    rw [unspanned]
  have checks : b.searchFrom (State.issueWith id) 3 = b.cutting.issueWith id := by
    have readying : b.inReadying = true := inReadying_iff.mpr ⟨rfl, rfl⟩
    unfold State.searchFrom
    rw [if_neg (by rw [readying, show b.cycle.stopPending = false from refuses.going]; decide), nothing]
    unfold State.checks
    rw [nothing]
    dsimp only
    rw [usable, show b.marks.seam = none by rw [opened]; rfl]
    rfl
  have unstopped : b.cutting.unstopped = b.cutting := by
    have same : ({ w with stopped := false } : Worklist) = w := by rw [← refuses.free]
    have planned : b.cutting.plan.worklist.map (fun w : Worklist => { w with stopped := false }) =
        s.plan.worklist := by
      rw [show b.cutting.plan.worklist = some w from refuses.planned, Option.map_some, same, refuses.planned]
    unfold State.unstopped State.mapWorklist
    rw [planned]
    rfl
  have one : b.cutting.issueOne = (b.cutting, .refused) := by
    rw [issueOne_live (s := b.cutting) refuses.planned (by rw [refuses.pointed]) refuses.item refuses.live]
    exact issueItem_refused (s := b.cutting) refuses.planned refuses.pointed
      (correct_unspanned (s := b.cutting) unspanned)
  have issues := issue_refused (s := b.cutting) refuses.planned refuses.going refuses.free
    (by rw [show b.cutting.motion.queue = [] from empty_refuses refuses]; decide) one
  have alone : b.cutting.plannerQueued = false := by
    unfold State.plannerQueued
    rw [show b.cutting.motion.queue = [] from empty_refuses refuses]
    rfl
  have waits : b.cutting.issueWith id = b.cutting := by
    rw [issueWith_eq, unstopped, issues]
    dsimp only
    rw [windowSpent_live (s := b.cutting) refuses.planned refuses.item refuses.live, if_neg (by decide), alone]
    rfl
  have rest : b.cutting.raiseTools.atRest := by
    refine ⟨?_, refuses.rest.2⟩
    show (false == !(s.arrived p).motion.queue.isEmpty) = true
    rw [empty_refuses refuses]
    rfl
  rw [exec_refuses refuses, checks, waits, restTools_empty (s := b.cutting) (empty_refuses refuses), close_rest _ rest]

end

end Sys2Proof.Machine

/-! The completion of a planner CUT: the cursor, the panel's first cut, and the run going on (R86, R87). -/

namespace Sys2Proof.Machine

/-! ### The cursor and the panel -/

/-- The worklist with the cursor item one segment further (R86). -/
def Worklist.tookCut (w : Worklist) (ref : CutRef) (it : Item) : Worklist :=
  { w with items := w.items.set ref.item it.cutOne }

/-- The panels after a cut taken from one of them: a PLACED one is CUTTING with its windows left (R87). -/
def State.begun (s : State) (slot : Slot) : Table Panel 96 :=
  if (s.panel slot).state = .placed then s.store.panels.set slot { s.panel slot with
    state := .cutting
    windowsLeft := some ((s.panel slot).lastWindow s.nest.params - s.cycle.pointer + 1) }
  else s.store.panels

section
variable {s : State} {slot : Slot}

theorem firstCut_eq (s : State) (slot : Slot) :
    s.firstCut slot = s.withStore { s.store with panels := s.begun slot } := by
  unfold State.firstCut State.begun
  dsimp only
  split <;> rfl

theorem begun_placed (placed : (s.panel slot).state = .placed) : (s.begun slot).get slot = { s.panel slot with
    state := .cutting
    windowsLeft := some ((s.panel slot).lastWindow s.nest.params - s.cycle.pointer + 1) } := by
  unfold State.begun
  rw [if_pos placed, Table.get_set_self]

theorem begun_begun (notPlaced : (s.panel slot).state ≠ .placed) : (s.begun slot).get slot = s.panel slot := by
  unfold State.begun
  rw [if_neg notPlaced]
  rfl

theorem begun_other {i : Slot} (other : i ≠ slot) : (s.begun slot).get i = s.panel i := by
  unfold State.begun
  split
  · rw [Table.get_set_ne _ _ (Ne.symm other)]
    rfl
  · rfl

/-- A panel's first cut leaves what it is still to cut (R75, R87). -/
theorem toCut_begun {lp : LayoutParams} (i : Slot) : ((s.begun slot).get i).lock = (s.panel i).lock ∧
    ((s.begun slot).get i).placement = (s.panel i).placement ∧
    ((s.begun slot).get i).lastWindow lp = (s.panel i).lastWindow lp ∧
    (((s.begun slot).get i).state = .placed ∨ ((s.begun slot).get i).state = .cutting →
      (s.panel i).state = .placed ∨ (s.panel i).state = .cutting) := by
  by_cases here : i = slot
  · subst here
    by_cases placed : (s.panel i).state = .placed
    · rw [begun_placed placed]
      exact ⟨rfl, rfl, rfl, fun _ => .inl placed⟩
    · rw [begun_begun placed]
      exact ⟨rfl, rfl, rfl, id⟩
  · rw [begun_other here]
    exact ⟨rfl, rfl, rfl, id⟩

end

theorem cutOne_segment {it : Item} (more : it.segDone + 1 < it.segments) :
    it.cutOne = { it with segDone := it.segDone + 1, state := .active } := if_pos more

theorem cutOne_pass {it : Item} (last : it.segments ≤ it.segDone + 1) : it.cutOne = { it with
    passDone := it.passDone + 1, segDone := 0, state := if it.passDone + 1 < it.passes then .active else .done } := by
  unfold Item.cutOne
  rw [if_neg (Nat.not_lt.mpr last)]
  split <;> rfl

theorem windowSpent_eq {s : State} {w : Worklist} (planned : s.plan.worklist = some w) :
    s.windowSpent = (!w.completed && !w.items.any Item.live) := by
  unfold State.windowSpent
  rw [planned]

/-! ### The completion -/

/-- A planner CUT under way in CUTTING that matches the cursor, nothing left to issue (R86). -/
structure State.CutEnds (s : State) (tool : Tool) (target : BedPos) (ref : CutRef) (more : List Entry) (w : Worklist)
    (it : Item) : Prop where
  rest : s.atRest
  cutting : s.cycle.state = .cutting
  queue : s.motion.queue = .cut tool target (some ref) :: more
  planned : s.plan.worklist = some w
  ended : w.issue.item = none
  cursor : w.cursorIndex = some ref.item
  item : w.items[ref.item]? = some it
  pass : it.passDone = ref.pass
  segment : it.segmentAfter it.passDone it.segDone = ref.segment

/-- The CUT gone from the queue, its cursor and its panel taken (R86, R87, R123). -/
def State.cutTaken (s : State) (target : BedPos) (ref : CutRef) (w : Worklist) (it : Item) : State :=
  ((s.arrived target).withPlan { s.plan with worklist := some (w.tookCut ref it) }).withStore
    { s.store with panels := s.begun it.slot }

section
variable {s : State} {tool : Tool} {target : BedPos} {ref : CutRef} {more : List Entry} {w : Worklist} {it : Item}
  (ends : s.CutEnds tool target ref more w it)
include ends

theorem matching_cutEnds : w.matching ref = some it := by
  unfold Worklist.matching
  rw [if_pos ends.cursor, ends.item]
  exact if_pos ⟨ends.pass, ends.segment⟩

theorem exec_cutEnds : exec .moveCompletion s = .next (if (s.cutTaken target ref w it).windowSpent then
    (s.cutTaken target ref w it).windowDone else (s.cutTaken target ref w it).cutSafePoint).restTools.close := by
  let u := (s.arrived target).withPlan { s.plan with worklist := some (w.tookCut ref it) }
  have takes : (s.arrived target).takeCut ref = (u, some it.slot) := by
    unfold State.takeCut
    rw [show (s.arrived target).plan.worklist = some w from ends.planned]
    dsimp only
    rw [matching_cutEnds ends]
    rfl
  obtain ⟨stop, issues, answered⟩ := issue_stands (s := u) rfl (issueOne_ended (s := u) rfl ends.ended) nofun
  have going : stop ≠ .refused := answered nofun
  have panels : u.firstCut it.slot = s.cutTaken target ref w it := firstCut_eq u it.slot
  have completes : (s.arrived target).plannerCompletion (some ref) =
      if (s.cutTaken target ref w it).windowSpent then (s.cutTaken target ref w it).windowDone
      else (s.cutTaken target ref w it).cutSafePoint := by
    unfold State.plannerCompletion
    rw [if_neg (not_not.mpr (show (s.arrived target).cycle.state = .cutting from ends.cutting))]
    dsimp only
    rw [takes]
    dsimp only
    rw [issues]
    dsimp only
    simp only [panels, Option.isSome_some, Bool.true_and, going, decide_false, Bool.false_and, Bool.false_eq_true,
      if_false]
  rw [exec_cutCompletion ends.rest ends.queue, completes]

/-- The run goes on with the next CUT (R86, R120 to R123). -/
theorem exec_cutEnds_cuts {next : Tool} {target' : BedPos} {ref' : Option CutRef} {later : List Entry}
    (behind : more = .cut next target' ref' :: later) (quiet : s.suspendPending = false)
    (going : s.cycle.stopPending = false) (homed : s.motion.homed = true) (shut : s.guardOpen = false)
    (onBed : target'.onBed = true) {a : Item} (member : a ∈ (w.tookCut ref it).items) (live : a.live = true) :
    exec .moveCompletion s = .next ((s.cutTaken target ref w it).cuts next) := by
  have unspent : (s.cutTaken target ref w it).windowSpent = false := by
    rw [windowSpent_eq (s := s.cutTaken target ref w it) rfl,
      show (w.tookCut ref it).items.any Item.live = true from List.any_eq_true.mpr ⟨a, member, live⟩, Bool.not_true,
      Bool.and_false]
  rw [exec_cutEnds ends, unspent, if_neg (by decide),
    cutSafePoint_quiet (s := s.cutTaken target ref w it) going quiet]
  have queue : (s.cutTaken target ref w it).motion.queue = .cut next target' ref' :: later :=
    (queue_arrived ends.queue target).trans behind
  exact congrArg Host.Outcome.next (close_cuts (t := s.cutTaken target ref w it) rfl queue shut homed onBed
    ends.rest.2)

theorem mem_tookCut : it.cutOne ∈ (w.tookCut ref it).items := by
  have inside : ref.item < w.items.length := (List.getElem?_eq_some_iff.mp ends.item).1
  exact List.mem_of_getElem? (List.getElem?_set_self inside)

omit ends in
theorem mem_tookCut_other {j : Nat} {a : Item} (other : j ≠ ref.item) (item : w.items[j]? = some a) :
    a ∈ (w.tookCut ref it).items := by
  refine List.mem_of_getElem? (i := j) ?_
  show (w.items.set ref.item _)[j]? = _
  rw [List.getElem?_set_ne (Ne.symm other), item]

end

end Sys2Proof.Machine

/-! The last item of a window cut: the window completed, and the run fed on, suspended, stopped or over (R88, R99, R103,
R111, log 12). -/

namespace Sys2Proof.Machine

/-! ### The completion of the window -/

/-- The window completed, its notices formed (R88). -/
def State.completed (s : State) : State :=
  s.counted.withLink { s.counted.link with formed := s.counted.link.formed ++ s.doneNotices }

section
variable {u : State} {v : Worklist} (planned : u.plan.worklist = some v) (fresh : v.completed = false)
include planned fresh

/-- What the cycle makes of a window completion (R99, R103, R111). -/
theorem windowDone_eq : u.windowDone = if u.moreToCut then
    if u.suspendPending then u.completed.takeSuspension .feed
    else if u.cycle.stopPending then u.completed.stopEffect else u.completed.runFeed
    else if u.cycle.stopPending then u.completed.stopEffect else u.completed.endRun := by
  unfold State.windowDone
  rw [completeWindow_said, doneBase_counted planned fresh]
  cases u.moreToCut <;> rfl

theorem moreToCut_iff : u.moreToCut = true ↔ ∃ i pl, (u.counted.panel i).lock = .committed ∧
    ((u.counted.panel i).state = .placed ∨ (u.counted.panel i).state = .cutting) ∧
    (u.counted.panel i).placement = some pl ∧ u.cycle.pointer + 1 ≤ (u.counted.panel i).lastWindow u.nest.params := by
  unfold State.moreToCut
  rw [doneBase_counted planned fresh]
  exact anyToCutFrom_iff

omit fresh in
theorem plan_completed : u.completed.plan.worklist = some { v with completed := true } := by
  show u.plan.worklist.map _ = _
  rw [planned]
  rfl

end

/-! ### The state a completion leaves, at the close -/

theorem units_flush (t : State) : t.flush.unitsOf = t.unitsOf := rfl

section
variable {u : State} (empty : u.motion.queue = []) (idle : u.motion.executing = false)
include empty idle

theorem units_ended : u.restTools.close.unitsOf = u.raiseTools.unitsOf := by
  have settled : u.raiseTools.motionSettled = true := by
    show (u.motion.executing == !u.motion.queue.isEmpty) = true
    rw [idle, empty]
    rfl
  rw [restTools_empty empty, close_settled settled, units_flush]

theorem units_suspended (resume : ResumePoint) :
    (u.takeSuspension resume).restTools.close.unitsOf = (u.suspendedWith u.motion resume).unitsOf := by
  rw [takeSuspension_eq (remove_empty empty _)]
  exact (units_ended (u := (u.suspendedWith u.motion resume).emit _) empty idle).trans rfl

/-- The state of a run that a stop has ended, its queue empty (R111). -/
def State.stoppedRun (s : State) : State :=
  { s with
    cycle := { s.cycle with
      state := .idle, runActive := false, stopPending := false, hold := none, taken := none, settleTimer := none
      reasons := ⟨false, false, false⟩, halts := 0, feedJob := none }
    plan := { s.plan with worklist := s.plan.worklist.map Worklist.rewind }
    marks := s.marks.invalidate s.currentRows
    motion := { s.motion with queue := [], kiss := .raised, thru := .raised }
    bed := { s.bed with toolKiss := none, toolThru := none, zones := Table.fill 4 false, beacon := false } }

omit empty idle in
theorem raiseTools_stoppedRun : u.stoppedRun.raiseTools = u.stoppedRun := rfl

theorem units_stopped : u.stopEffect.restTools.close.unitsOf = u.stoppedRun.unitsOf := by
  have stops : u.stopEffect = u.stoppedRun := by
    rw [stopEffect_eq (remove_empty empty _), empty]
    rfl
  rw [stops]
  exact (units_ended (u := u.stoppedRun) rfl idle).trans (congrArg State.unitsOf raiseTools_stoppedRun)

/-- The state of a run that is over (R99). -/
def State.overRun (s : State) : State :=
  { s with
    cycle := { s.cycle with
      state := .idle, runActive := false, stopPending := false, hold := none, taken := none, settleTimer := none
      reasons := ⟨false, false, false⟩, halts := 0, feedJob := none }
    motion := { s.motion with kiss := .raised, thru := .raised }
    bed := { s.bed with toolKiss := none, toolThru := none, zones := Table.fill 4 false, beacon := false } }

omit empty idle in
theorem raiseTools_endRun : u.endRun.raiseTools = u.overRun := by
  unfold State.endRun
  dsimp only [State.raiseTools, State.clearReasons, State.setCycle, State.releaseZones, State.withMotion, State.withBed,
    State.withCycle]
  rfl

theorem units_over : u.endRun.restTools.close.unitsOf = u.overRun.unitsOf :=
  (units_ended (u := u.endRun) empty idle).trans (congrArg State.unitsOf raiseTools_endRun)

omit empty idle in
theorem startFeed_feedPlaced (distance : Nat) (job : FeedJob) :
    (u.feedPlaced distance job).startFeed distance = u.feeds distance job := rfl

omit idle in
theorem restTools_runFeed : u.runFeed.restTools = u.feedPlaced u.nest.params.advance ⟨.run, 1⟩ := by
  unfold State.runFeed
  rw [placeFeed_eq empty]
  rfl

theorem units_fed (shut : u.guardOpen = false) (supplied : u.mediaEnd = false) :
    u.runFeed.restTools.close.unitsOf = (u.feeds u.nest.params.advance ⟨.run, 1⟩).unitsOf := by
  rw [restTools_runFeed empty, close_takes (t := u.feedPlaced _ _) idle rfl nofun,
    takeEntry_feed (s := u.feedPlaced _ _) shut supplied, units_flush, startFeed_feedPlaced]

/-- A run feed whose take is a fault (R127, R137). -/
theorem fed_fault (unlatched : u.cycle.fault = none) (bad : ¬(u.guardOpen = false ∧ u.mediaEnd = false)) :
    ∃ k d, (k = .guard ∨ k = .mediaEnd) ∧ u.runFeed.restTools.close =
      (u.feedPlaced u.nest.params.advance ⟨.run, 1⟩).faulted k d (some (.feed u.nest.params.advance)) := by
  rw [restTools_runFeed empty]
  cases open_ : u.guardOpen with
  | true => exact ⟨.guard, _, .inl rfl, close_takes_fault (t := u.feedPlaced _ _) idle rfl
      (takeEntry_guard unlatched open_)⟩
  | false =>
    have ended : u.mediaEnd = true := by
      by_contra supplied
      exact bad ⟨open_, Bool.eq_false_iff.mpr supplied⟩
    refine ⟨.mediaEnd, .mediaEnd false u.nest.params.advance 0, .inr rfl,
      close_takes_fault (t := u.feedPlaced _ _) idle rfl ?_⟩
    rw [takeEntry_passes (t := u.feedPlaced _ _) open_ rfl]
    exact (if_pos ended).trans (raiseFault_unlatched (s := u.feedPlaced _ _) unlatched ..)

end

end Sys2Proof.Machine

/-! The completion of a planner CUT or TRAVEL: the statement (R64, R65, R82 to R88, R99, R103, R111, R120 to R123). -/

namespace Sys2Proof.Machine

/-! ### The last cut of a window -/

/-- What every end of a window's last cut keeps: the worklist completed with its items, the head at the target, the
window pointer (R86, R88, R123). -/
def State.endsWindow (t : State) (items : List Item) (target : BedPos) (k : Nat) : Prop :=
  (∃ v, t.plan.worklist = some v ∧ v.completed = true ∧ v.items = items) ∧ t.motion.head = some target ∧
    t.cycle.pointer = k

theorem endsWindow_of_units {t u : State} {items : List Item} {target : BedPos} {k : Nat}
    (same : t.unitsOf = u.unitsOf) (ends : u.endsWindow items target k) : t.endsWindow items target k := by
  simp only [State.unitsOf, Prod.mk.injEq] at same
  obtain ⟨_, _, _, _, plan, cycle, motion, _⟩ := same
  unfold State.endsWindow
  rw [plan, cycle, motion]
  exact ends

theorem pointer_owedAtFault (s : State) (e : Option Entry) : (s.owedAtFault e).pointer = s.cycle.pointer := by
  unfold State.owedAtFault State.writeOwed
  split <;> rfl

/-- A fault entry that does not lose the home position keeps them too (R126, R145). -/
theorem endsWindow_faulted {s : State} {items : List Item} {target : BedPos} {j : Nat} {k : FaultKind}
    (homed : k = .guard ∨ k = .mediaEnd) (d : FaultDetail) (e : Option Entry) (ends : s.endsWindow items target j) :
    (s.faulted k d e).endsWindow items target j := by
  obtain ⟨⟨v, planned, completed, items⟩, head, pointer⟩ := ends
  have keeps : ¬(k = .estop ∨ k = .homeFail) := by rcases homed with rfl | rfl <;> decide
  refine ⟨⟨v.faulted, ?_, completed, items⟩, ?_, ?_⟩
  · rw [faulted_flush, State.plan_flush, plan_faultEntry, planned]
    rfl
  · rw [motion_faulted, motion_faultEntry, if_neg keeps]
    exact head
  · rw [cycle_faulted, cycle_faultEntry]
    exact (pointer_owedAtFault s e).trans pointer

section
variable {u : State} {v : Worklist} (planned : u.plan.worklist = some v) (fresh : v.completed = false)
  (empty : u.motion.queue = []) (idle : u.motion.executing = false)
include planned fresh empty idle

theorem endsWindow_windowDone {target : BedPos} (unlatched : u.cycle.fault = none)
    (head : u.motion.head = some target) :
    u.windowDone.restTools.close.endsWindow v.items target u.cycle.pointer := by
  have plan := plan_completed planned
  have stays : u.completed.endsWindow v.items target u.cycle.pointer := ⟨⟨_, plan, rfl, rfl⟩, head, rfl⟩
  have rewound : u.completed.plan.worklist.map Worklist.rewind =
      some (Worklist.rewind { v with completed := true }) := by
    rw [plan]
    rfl
  have stops : u.completed.stopEffect.restTools.close.endsWindow v.items target u.cycle.pointer :=
    endsWindow_of_units (units_stopped (u := u.completed) empty idle) ⟨⟨_, rewound, rfl, rfl⟩, head, rfl⟩
  rw [windowDone_eq planned fresh]
  split
  · split
    · exact endsWindow_of_units (units_suspended (u := u.completed) empty idle .feed)
        ⟨⟨_, rewound, rfl, rfl⟩, head, rfl⟩
    · split
      · exact stops
      · by_cases good : u.guardOpen = false ∧ u.mediaEnd = false
        · obtain ⟨shut, supplied⟩ := good
          exact endsWindow_of_units (units_fed (u := u.completed) empty idle shut supplied)
            ⟨⟨_, plan, rfl, rfl⟩, head, rfl⟩
        · obtain ⟨k, d, kind, faults⟩ := fed_fault (u := u.completed) empty idle unlatched good
          rw [faults]
          exact endsWindow_faulted kind d _ ⟨⟨_, plan, rfl, rfl⟩, head, rfl⟩
  · split
    · exact stops
    · exact endsWindow_of_units (units_over (u := u.completed) empty idle) ⟨⟨_, plan, rfl, rfl⟩, head, rfl⟩

theorem windowDone_fed (more : u.moreToCut = true) (quiet : u.suspendPending = false)
    (going : u.cycle.stopPending = false) (shut : u.guardOpen = false) (supplied : u.mediaEnd = false) :
    u.windowDone.restTools.close.unitsOf = (u.completed.feeds u.nest.params.advance ⟨.run, 1⟩).unitsOf := by
  rw [windowDone_eq planned fresh, more, quiet, going]
  exact units_fed (u := u.completed) empty idle shut supplied

theorem windowDone_suspended (more : u.moreToCut = true) (pending : u.suspendPending = true) :
    u.windowDone.restTools.close.unitsOf = (u.completed.suspendedWith u.motion .feed).unitsOf := by
  rw [windowDone_eq planned fresh, more, pending]
  exact units_suspended (u := u.completed) empty idle .feed

theorem windowDone_over (none_ : u.moreToCut = false) (going : u.cycle.stopPending = false) :
    u.windowDone.restTools.close.unitsOf = u.completed.overRun.unitsOf := by
  rw [windowDone_eq planned fresh, none_, going]
  exact units_over (u := u.completed) empty idle

theorem windowDone_stopped (stop : u.cycle.stopPending = true)
    (first : u.moreToCut = false ∨ u.suspendPending = false) :
    u.windowDone.restTools.close.unitsOf = u.completed.stoppedRun.unitsOf := by
  rw [windowDone_eq planned fresh, stop]
  have ends := units_stopped (u := u.completed) empty idle
  rcases first with none_ | quiet
  · rw [none_]
    exact ends
  · rw [quiet]
    cases u.moreToCut <;> exact ends

end

/-! ### The last cut of a window, from the CUT's completion -/

section
variable {s : State} {tool : Tool} {target : BedPos} {ref : CutRef} {w : Worklist} {it : Item}

theorem panel_cutTaken (i : Slot) : (s.cutTaken target ref w it).panel i = (s.begun it.slot).get i := rfl

theorem moreToCut_placed (fresh : w.completed = false) {i : Slot} {pl : Placement} (other : i ≠ it.slot)
    (lock : (s.panel i).lock = .committed) (placed : (s.panel i).state = .placed)
    (placement : (s.panel i).placement = some pl)
    (later : s.cycle.pointer + 1 ≤ (s.panel i).lastWindow s.nest.params) :
    (s.cutTaken target ref w it).moreToCut = true := by
  have same : (s.cutTaken target ref w it).counted.panel i = s.panel i := by
    rw [panel_counted, panel_cutTaken, begun_other other]
    exact atWindowDone_placed placed _ _
  refine (moreToCut_iff (v := w.tookCut ref it) rfl fresh).mpr ⟨i, pl, ?_⟩
  rw [same]
  exact ⟨lock, .inl placed, placement, later⟩

theorem not_moreToCut (fresh : w.completed = false) (nothing : ∀ i, ¬((s.panel i).lock = .committed ∧
    ((s.panel i).state = .placed ∨ (s.panel i).state = .cutting) ∧ (s.panel i).placement ≠ none ∧
    s.cycle.pointer + 1 ≤ (s.panel i).lastWindow s.nest.params)) :
    (s.cutTaken target ref w it).moreToCut = false := by
  refine Bool.eq_false_iff.mpr fun more => ?_
  obtain ⟨i, pl, lock, state, placement, later⟩ := (moreToCut_iff (v := w.tookCut ref it) rfl fresh).mp more
  obtain ⟨lock', placement', last', state'⟩ := toCut_atWindowDone (lp := s.nest.params) (k := s.cycle.pointer)
    (p := (s.begun it.slot).get i)
  obtain ⟨lock'', placement'', last'', state''⟩ := toCut_begun (s := s) (slot := it.slot) (lp := s.nest.params) i
  rw [panel_counted, panel_cutTaken] at lock state placement later
  refine nothing i ⟨?_, state'' (state' state), ?_, ?_⟩
  · exact (lock'.trans lock'').symm.trans lock
  · rw [(placement'.trans placement'').symm.trans placement]
    exact nofun
  · exact (later.trans (last'.trans last'').le)

theorem exec_cutEnds_windowDone (ends : s.CutEnds tool target ref [] w it) (fresh : w.completed = false)
    (lastSegment : it.segments ≤ it.segDone + 1) (lastPass : it.passes ≤ it.passDone + 1)
    (others : ∀ j a, j ≠ ref.item → w.items[j]? = some a → a.live = false) :
    exec .moveCompletion s = .next (s.cutTaken target ref w it).windowDone.restTools.close := by
  have done : it.cutOne.live = false := by
    rw [cutOne_pass lastSegment, if_neg (Nat.not_lt.mpr lastPass)]
    rfl
  have spent : (s.cutTaken target ref w it).windowSpent = true := by
    have none_ : (w.tookCut ref it).items.any Item.live = false := by
      rw [List.any_eq_false]
      intro a member
      obtain ⟨j, at_⟩ := List.getElem?_of_mem member
      have inside : ref.item < w.items.length := (List.getElem?_eq_some_iff.mp ends.item).1
      by_cases here : j = ref.item
      · subst here
        rw [show (w.tookCut ref it).items[ref.item]? = some it.cutOne from List.getElem?_set_self inside] at at_
        rw [← Option.some.inj at_, done]
        decide
      · rw [show (w.tookCut ref it).items[j]? = w.items[j]? from List.getElem?_set_ne (Ne.symm here)] at at_
        rw [others j a here at_]
        decide
    rw [windowSpent_eq (s := s.cutTaken target ref w it) rfl, none_,
      show (w.tookCut ref it).completed = false from fresh]
    rfl
  rw [exec_cutEnds ends, spent, if_pos rfl]

end

end Sys2Proof.Machine

/-! The completion of a planner entry: the statement (R64, R65, R82 to R88, R99, R103, R111, R120 to R123). -/

namespace Sys2Proof.Machine

/-! ### Fields of the states a completion leaves -/

section
variable (s : State) (tool : Tool)

theorem cycle_cuts : (s.cuts tool).cycle = s.cycle := rfl
theorem marks_cuts : (s.cuts tool).marks = s.marks := rfl
theorem link_cuts : (s.cuts tool).link = s.link := rfl
theorem plan_cuts : (s.cuts tool).plan = s.plan := rfl
theorem store_cuts : (s.cuts tool).store = s.store := rfl
theorem queue_cuts : (s.cuts tool).motion.queue = s.motion.queue := rfl
theorem head_cuts : (s.cuts tool).motion.head = s.motion.head := rfl
theorem panel_cuts (i : Slot) : (s.cuts tool).panel i = s.panel i := rfl

variable (target : BedPos) (ref : CutRef) (w : Worklist) (it : Item)

theorem cycle_cutTaken : (s.cutTaken target ref w it).cycle = s.cycle := rfl
theorem marks_cutTaken : (s.cutTaken target ref w it).marks = s.marks := rfl
theorem link_cutTaken : (s.cutTaken target ref w it).link = s.link := rfl
theorem plan_cutTaken : (s.cutTaken target ref w it).plan =
    { s.plan with worklist := some (w.tookCut ref it) } := rfl
theorem nest_cutTaken : (s.cutTaken target ref w it).nest = s.nest := rfl
theorem zones_cutTaken : (s.cutTaken target ref w it).bed.zones = s.bed.zones := rfl
theorem rows_cutTaken : (s.cutTaken target ref w it).currentRows = s.currentRows := rfl
theorem head_cutTaken : (s.cutTaken target ref w it).motion.head = some target := rfl

end

section
variable (s : State) (row : Nat) (side : Side) (m : Mark) (rect : Rect)

theorem plan_searching : (s.searching row side m rect).travels.plan = s.plan := rfl
theorem link_searching : (s.searching row side m rect).travels.link = s.link := rfl

variable (p : BedPos)

theorem plan_reopened : s.reopened.plan = s.plan := rfl
theorem link_reopened : s.reopened.link = s.link := rfl
theorem plan_arrived : (s.arrived p).plan = s.plan := rfl
theorem link_arrived : (s.arrived p).link = s.link := rfl
theorem marks_reopened : (s.arrived p).reopened.marks = s.marks.openWindow s.cycle.pointer s.windowSpan none := rfl

theorem cycle_waiting : s.cutting.raiseTools.cycle = { s.cycle with
    state := .cutting, hold := none, taken := none, settleTimer := none } := rfl
theorem plan_waiting : s.cutting.raiseTools.plan = s.plan := rfl
theorem link_waiting : s.cutting.raiseTools.link = s.link := rfl

end

/-- A run that has ended in IDLE at window `k`, its zones released (R99, R111). -/
def State.runOver (t : State) (k : Nat) : Prop :=
  t.cycle.state = .idle ∧ t.cycle.runActive = false ∧ t.cycle.stopPending = false ∧ t.motion.queue = [] ∧
    t.bed.zones = Table.fill 4 false ∧ t.cycle.pointer = k

section
variable {t u : State}

theorem runOver_stopped (same : t.unitsOf = u.completed.stoppedRun.unitsOf) :
    t.runOver u.cycle.pointer ∧ t.marks = u.marks.invalidate u.currentRows := by
  simp only [State.unitsOf, Prod.mk.injEq] at same
  obtain ⟨_, _, _, marks, _, cycle, motion, bed⟩ := same
  unfold State.runOver
  rw [cycle, motion, bed, marks]
  exact ⟨⟨rfl, rfl, rfl, rfl, rfl, rfl⟩, rfl⟩

theorem runOver_over (empty : u.motion.queue = []) (same : t.unitsOf = u.completed.overRun.unitsOf) :
    t.runOver u.cycle.pointer ∧ t.marks = u.marks := by
  simp only [State.unitsOf, Prod.mk.injEq] at same
  obtain ⟨_, _, _, marks, _, cycle, motion, bed⟩ := same
  unfold State.runOver
  rw [cycle, motion, bed, marks]
  exact ⟨⟨rfl, rfl, rfl, empty, rfl, rfl⟩, rfl⟩

theorem fields_suspended (empty : u.motion.queue = [])
    (same : t.unitsOf = (u.completed.suspendedWith u.motion .feed).unitsOf) : t.cycle.state = .suspended ∧
      t.cycle.taken = some ⟨u.cycle.reasons, u.cycle.halts, .feed⟩ ∧ t.motion.queue = [] ∧
      t.bed.zones = u.bed.zones := by
  simp only [State.unitsOf, Prod.mk.injEq] at same
  obtain ⟨_, _, _, _, _, cycle, motion, bed⟩ := same
  rw [cycle, motion, bed]
  exact ⟨rfl, rfl, empty, rfl⟩

theorem fields_fed {distance : Nat} (same : t.unitsOf = (u.completed.feeds distance ⟨.run, 1⟩).unitsOf) :
    t.cycle.state = .feeding ∧ t.cycle.feedJob = some ⟨.run, 1⟩ ∧ t.motion.queue = [.feed distance] ∧
      t.motion.executing = true ∧ t.bed.zones = Table.fill 4 false ∧ t.cycle.runActive = u.cycle.runActive := by
  simp only [State.unitsOf, Prod.mk.injEq] at same
  obtain ⟨_, _, _, _, _, cycle, motion, bed⟩ := same
  rw [cycle, motion, bed]
  exact ⟨rfl, rfl, rfl, rfl, rfl, rfl⟩

end

/-! ### A window completion, clause by clause (R88) -/

section
variable {s : State}

theorem panel_completeWindow (i : Slot) : s.completeWindow.1.panel i = s.doneBase.panel i := by
  rw [completeWindow_said]
  rfl

theorem formed_completeWindow : s.completeWindow.1.link.formed = s.doneBase.link.formed ++ s.doneNotices := by
  rw [completeWindow_said]
  rfl

theorem feeds_completeWindow : s.completeWindow.2 = true ↔ ∃ i, (s.completeWindow.1.panel i).lock = .committed ∧
    ((s.completeWindow.1.panel i).state = .placed ∨ (s.completeWindow.1.panel i).state = .cutting) ∧
    (s.completeWindow.1.panel i).placement ≠ none ∧
    s.cycle.pointer + 1 ≤ (s.completeWindow.1.panel i).lastWindow s.nest.params := by
  simp only [panel_completeWindow]
  rw [completeWindow_said]
  refine (anyToCutFrom_iff (panels := s.doneBase.store.panels)).trans (exists_congr fun i => ?_)
  show (∃ pl, (s.doneBase.panel i).lock = .committed ∧ _ ∧ (s.doneBase.panel i).placement = some pl ∧ _) ↔ _
  rw [← Option.isSome_iff_ne_none, Option.isSome_iff_exists]
  exact ⟨fun ⟨pl, lock, state, placed, later⟩ => ⟨lock, state, ⟨pl, placed⟩, later⟩,
    fun ⟨lock, state, ⟨pl, placed⟩, later⟩ => ⟨pl, lock, state, placed, later⟩⟩

theorem last_completeWindow : s.completeWindow.1.link.formed.getLast? =
    some (if s.completeWindow.2 then windowDoneNotice s.cycle.pointer else runDoneNotice s.cycle.pointer) := by
  rw [formed_completeWindow, completeWindow_said]
  unfold State.doneNotices
  cases s.moreToCut <;> simp

theorem completeWindow_again {w : Worklist} (planned : s.plan.worklist = some w) (completed : w.completed = true) :
    s.completeWindow.1 = { s with link := s.completeWindow.1.link } := by
  rw [completeWindow_said, doneBase_again planned completed]
  rfl

theorem completeWindow_first {w : Worklist} (planned : s.plan.worklist = some w) (fresh : w.completed = false) :
    s.completeWindow.1 = { s with
      link := s.completeWindow.1.link
      plan := { s.plan with worklist := some { w with completed := true } }
      store := { s.store with panels := s.completeWindow.1.store.panels } } := by
  have plan : s.counted.plan = { s.plan with worklist := some { w with completed := true } } := by
    show ({ s.plan with worklist := s.plan.worklist.map _ } : Planner) = _
    rw [planned]
    rfl
  rw [completeWindow_said, doneBase_counted planned fresh, ← plan]
  rfl

end

/-! ### The blended correction (R65) -/

theorem roundsTo_correction {lp : LayoutParams} (pitch : 0 < lp.markPitch) (wide : 0 < lp.spacing) (pt : Vertex)
    (i : Nat) (l r l' r' : Int) :
    let x : Rat := ((pt.u : Rat) - lp.uLeft) / ((lp.uRight : Rat) - lp.uLeft)
    let y : Rat := ((pt.v : Rat) - (lp.lead + i * lp.markPitch : Nat)) / lp.markPitch
    roundsTo ((1 - x) * (1 - y) * l + x * (1 - y) * r + (1 - x) * y * l' + x * y * r')
      (blend lp.spacing lp.markPitch ((pt.u : Int) - lp.uLeft) ((pt.v : Int) - lp.rowV i) l r l' r') := by
  intro x y
  have rounds := roundsTo_blend lp.spacing lp.markPitch ((pt.u : Int) - lp.uLeft) ((pt.v : Int) - lp.rowV i) l r l' r'
    wide pitch
  have order : lp.uLeft ≤ lp.uRight := (Nat.lt_of_sub_pos wide).le
  have across : (((pt.u : Int) - lp.uLeft : Int) : Rat) / lp.spacing = x := by
    unfold LayoutParams.spacing
    rw [Nat.cast_sub order]
    push_cast
    rfl
  have along : (((pt.v : Int) - lp.rowV i : Int) : Rat) / lp.markPitch = y := by
    unfold LayoutParams.rowV
    push_cast
    simp only [y]
    push_cast
    rfl
  rw [across, along] at rounds
  exact rounds

end Sys2Proof.Machine

/-! CUT completions advance the cursor: the statement (R64, R65, R82 to R88, R99, R103, R111, R120 to R123). -/

namespace Sys2Proof.Machine

/-- Settles O50. -/
theorem cutCompletionAdvancesCursor : Obligations.CutCompletionAdvancesCursor := by
  refine ⟨fun s tool next target target' ref ref' rest w it atRest safe cutting queue quiet going homed shut onBed
      planned ended free cursor item pass segment more => ?_,
    fun s tool next target target' ref ref' rest w it atRest safe cutting queue quiet going homed shut onBed
      planned ended free cursor item pass segment last other => ?_,
    fun s tool target ref w it atRest safe cutting queue planned fresh ended free cursor item pass segment last lastPass
      others => ?_,
    fun s w planned => ?_, fun lp sp mu pt i a b la ra lb rb pitch wide => ?_, fun s pt => ?_, fun it pass n => ?_,
    fun s p target' next ref' more w atRest safe cutting queue quiet going homed shut onBed planned free => ?_,
    fun s p w i it pass n reported atRest safe cutting queue going homed shut planned free pointed item live refused =>
      ?_⟩
  · intro p
    have ends : s.CutEnds tool target ref _ w it :=
      ⟨atRest, cutting, queue, planned, ended, cursor, item, pass, segment⟩
    have active : it.cutOne.live = true := live_iff.mpr (.inr (by rw [cutOne_segment more]))
    have cuts := exec_cutEnds_cuts ends rfl quiet going homed shut onBed (mem_tookCut ends) active
    refine ⟨_, w.tookCut ref it, cuts, congrArg Planner.worklist ((plan_cuts ..).trans (plan_cutTaken ..)), ?_,
      fun placed => (panel_cuts ..).trans ((panel_cutTaken ..).trans (begun_placed placed)),
      fun notPlaced => (panel_cuts ..).trans ((panel_cutTaken ..).trans (begun_begun notPlaced)),
      fun j other => (panel_cuts ..).trans ((panel_cutTaken ..).trans (begun_other other)),
      (head_cuts ..).trans (head_cutTaken ..), (queue_cuts ..).trans (queue_arrived queue target), rfl, rfl, rfl, rfl,
      rfl, rfl, (cycle_cuts ..).trans (cycle_cutTaken ..), (marks_cuts ..).trans (marks_cutTaken ..),
      (link_cuts ..).trans (link_cutTaken ..)⟩
    show w.items.set ref.item it.cutOne = _
    rw [cutOne_segment more]
  · have ends : s.CutEnds tool target ref _ w it :=
      ⟨atRest, cutting, queue, planned, ended, cursor, item, pass, segment⟩
    have liveOne : ∃ a ∈ (w.tookCut ref it).items, a.live = true := by
      rcases other with again | ⟨j, a, apart, at_, state⟩
      · exact ⟨_, mem_tookCut ends, live_iff.mpr (.inr (by rw [cutOne_pass last, if_pos again]))⟩
      · exact ⟨a, mem_tookCut_other apart at_, live_iff.mpr state⟩
    obtain ⟨a, member, live⟩ := liveOne
    have cuts := exec_cutEnds_cuts ends rfl quiet going homed shut onBed member live
    refine ⟨_, w.tookCut ref it, cuts, congrArg Planner.worklist ((plan_cuts ..).trans (plan_cutTaken ..)), ?_, rfl,
      (head_cuts ..).trans (head_cutTaken ..), (queue_cuts ..).trans (queue_arrived queue target),
      (cycle_cuts ..).trans (cycle_cutTaken ..)⟩
    show w.items.set ref.item it.cutOne = _
    rw [cutOne_pass last]
  · intro toCut k advance runOver
    have ends : s.CutEnds tool target ref [] w it :=
      ⟨atRest, cutting, queue, planned, ended, cursor, item, pass, segment⟩
    have exec_ := exec_cutEnds_windowDone ends fresh last lastPass fun j a apart at_ =>
      not_live_iff.mpr (others j a apart at_)
    have unlatched : s.cycle.fault = none := fault_of_safe safe (by rw [cutting]; decide)
    have empty : (s.cutTaken target ref w it).motion.queue = [] := queue_arrived queue target
    have more (left : ∃ i, i ≠ it.slot ∧ toCut i (k + 1) ∧ (s.panel i).state = .placed) :
        (s.cutTaken target ref w it).moreToCut = true := by
      obtain ⟨i, apart, ⟨lock, _, placement, later⟩, placed⟩ := left
      obtain ⟨pl, at_⟩ := Option.ne_none_iff_exists'.mp placement
      exact moreToCut_placed fresh apart lock placed at_ later
    obtain ⟨⟨v, isPlan, completed, items⟩, head, pointer⟩ := endsWindow_windowDone
      (u := s.cutTaken target ref w it) (v := w.tookCut ref it) rfl fresh empty rfl unlatched rfl
    refine ⟨_, v, exec_, isPlan, completed, ?_, head, pointer, fun going quiet shut supplied left => ?_,
      fun going pending left => ?_, fun nothing => ?_, fun stop quiet => ?_⟩
    · rw [items]
      show w.items.set ref.item it.cutOne = _
      rw [cutOne_pass last, if_neg (Nat.not_lt.mpr lastPass)]
    · have fed := fields_fed (windowDone_fed (u := s.cutTaken target ref w it) (v := w.tookCut ref it) rfl fresh empty
        rfl (more left) quiet going shut supplied)
      rw [nest_cutTaken, cycle_cutTaken] at fed
      exact fed
    · have suspended := fields_suspended empty (windowDone_suspended (u := s.cutTaken target ref w it)
        (v := w.tookCut ref it) rfl fresh empty rfl (more left) pending)
      rw [cycle_cutTaken, zones_cutTaken] at suspended
      exact suspended
    · have none_ := not_moreToCut (target := target) (ref := ref) (it := it) fresh nothing
      cases going : s.cycle.stopPending with
      | true =>
        obtain ⟨ends, _⟩ := runOver_stopped (windowDone_stopped (u := s.cutTaken target ref w it)
          (v := w.tookCut ref it) rfl fresh empty rfl going (.inl none_))
        exact ⟨ends, fun h => nomatch h⟩
      | false =>
        obtain ⟨ends, marks⟩ := runOver_over empty (windowDone_over (u := s.cutTaken target ref w it)
          (v := w.tookCut ref it) rfl fresh empty rfl none_ going)
        exact ⟨ends, fun _ => marks.trans (marks_cutTaken ..)⟩
    · obtain ⟨ends, marks⟩ := runOver_stopped (windowDone_stopped (u := s.cutTaken target ref w it)
        (v := w.tookCut ref it) rfl fresh empty rfl stop (.inr quiet))
      rw [marks_cutTaken, rows_cutTaken] at marks
      exact ⟨ends, marks⟩
  · intro k t met
    have panels (i : Slot) : t.panel i = s.doneBase.panel i := panel_completeWindow i
    have isMet (i : Slot) : (s.panel i).meets s.nest.params k = true ↔ met (s.panel i) := meets_iff
    refine ⟨fun completed => ⟨completeWindow_again planned completed,
        if s.moreToCut then [] else [runDoneNotice k], ?_⟩,
      fun fresh => ⟨completeWindow_first planned fresh, fun i n state meets left => ?_, fun i other => ?_,
        s.cutAtDone k, if s.moreToCut then [] else [runDoneNotice k], cutAtDone_ascends s k, fun i => ?_, ?_⟩,
      feeds_completeWindow, fun more => ?_, fun done => ?_⟩
    · rw [show t.link.formed = s.doneBase.link.formed ++ s.doneNotices from formed_completeWindow,
        doneBase_again planned completed]
      rfl
    · rw [panels, doneBase_counted planned fresh, panel_counted]
      exact atWindowDone_counts state ((isMet i).mpr meets) left
    · rw [panels, doneBase_counted planned fresh, panel_counted]
      exact atWindowDone_keeps (other.imp_right (isMet i).not.mpr)
    · rw [panels, doneBase_counted planned fresh]
      exact mem_cutAtDone
    · rw [show t.link.formed = s.doneBase.link.formed ++ s.doneNotices from formed_completeWindow,
        doneBase_counted planned fresh]
      rfl
    · exact last_completeWindow.trans (congrArg some (if_pos more))
    · exact last_completeWindow.trans (congrArg some (if_neg (by rw [done]; decide)))
  · intro v
    refine ⟨bandOf_iff pitch, fun lower upper isLa isRa isLb isRb => ?_⟩
    intro x y blended
    exact ⟨_, correctIn_measured lower upper isLa isRa isLb isRb lp pt,
      roundsTo_correction pitch wide pt i la.pos.x ra.pos.x lb.pos.x rb.pos.x,
      roundsTo_correction pitch wide pt i la.pos.y ra.pos.y lb.pos.y rb.pos.y⟩
  · refine ⟨correct_unspanned, fun sp fixed => ⟨correct_outside fixed, fun i => correct_inside fixed⟩, fun i => ?_⟩
    rw [usable_iff]
    simp only [List.mem_cons, List.not_mem_nil, or_false, forall_eq_or_imp, forall_eq, held_iff]
  · exact ⟨fun forward => passes_forward forward n, fun open_ odd => passes_backward open_ odd n⟩
  · intro rest goesOn
    have ends : s.TravelEnds p next target' ref' more w :=
      ⟨atRest, cutting, queue, quiet, going, homed, shut, onBed, planned, free⟩
    have goes {issued : List Entry} {v : Worklist}
        (exec_ : exec .moveCompletion s = .next (((s.arrived p).issuedOn v issued).cuts next)) : goesOn issued v :=
      ⟨_, exec_, congrArg (· ++ issued) (queue_travelEnds ends), rfl, rfl, rfl, rfl, rfl, rfl, rfl⟩
    refine ⟨fun none_ => goes (exec_travelEnds_stands ends (issueOne_ended (s := s.arrived p) planned none_) nofun),
      fun i it pass n reported pointed item live => ?_, fun i it target cursor item full pointed answers => ?_⟩
    · have one := issueOne_live (s := s.arrived p) planned (by rw [pointed]) item (live_iff.mpr live)
      refine ⟨fun refused => goes (exec_travelEnds_stands ends
        (one.trans (issueItem_refused (s := s.arrived p) planned pointed refused)) nofun),
        fun target answers full => ⟨w.afterCut i it pass n, ?_, fun more => if_pos more, fun last again => ?_,
          fun last lastPass => ⟨fun j b behind at_ state first => ?_, fun none_ => ?_⟩⟩⟩
      · exact goes (exec_travelEnds_places ends full (one.trans
          (issueItem_cut (s := s.arrived p) pointed (length_travelEnds ends full) answers)))
      · exact (if_neg (Nat.not_lt.mpr last)).trans (if_pos again)
      · exact afterCut_next last lastPass behind at_ (live_iff.mpr state) fun k a after before at_ =>
          not_live_iff.mpr (first k a after before at_)
      · exact afterCut_last last lastPass fun k a after at_ => not_live_iff.mpr (none_ k a after at_)
    · have live := live_of_cursor cursor item
      have one := issueOne_live (s := s.arrived p) planned (by rw [pointed]) item live
      have room := length_travelEnds ends full
      refine ⟨fun passed => ?_, fun unpassed known => ?_⟩
      · have travels := issueItem_travel (s := s.arrived p) pointed (.inr (.inr passed)) answers room
        unfold Worklist.travelled at travels
        rw [if_pos passed] at travels
        exact goes (exec_travelEnds_places ends full (one.trans travels))
      · rcases known with begun | ⟨step, off⟩
        · have travels := issueItem_travel (s := s.arrived p) pointed (by tauto) answers room
          unfold Worklist.travelled at travels
          rw [if_neg unpassed] at travels
          exact goes (exec_travelEnds_places ends full (one.trans travels))
        · have starts := issueItem_starts (s := s.arrived p) pointed unpassed
            (fun r => testItemStart_off (s := s.arrived p) w r step off quiet) answers room
          exact goes (exec_travelEnds_places ends full (one.trans starts))
  · intro k
    have refuses : s.Refuses p w i it pass n reported :=
      ⟨atRest, safe, cutting, queue, going, homed, shut, planned, free, pointed, item, live_iff.mpr live, refused⟩
    refine ⟨fun sp rect span clipped => ?_, fun none_ => ?_⟩
    · obtain ⟨m, mark, fresh, exec_⟩ := exec_refuses_searches refuses span clipped
      refine ⟨_, m, exec_, rfl, rfl, (cycle_searching ..).trans (cycle_reopened refuses),
        (plan_searching ..).trans ((plan_reopened ..).trans (plan_arrived ..)),
        (link_searching ..).trans ((link_reopened ..).trans (link_arrived ..)), mark, ?_⟩
      rw [marks_searching, marks_reopened, span]
      unfold MarkUnit.tried
      rw [fresh]
    · refine ⟨_, exec_refuses_waits refuses none_, ?_, empty_refuses refuses, rfl, rfl,
        (plan_waiting ..).trans ((plan_reopened ..).trans (plan_arrived ..)),
        (link_waiting ..).trans ((link_reopened ..).trans (link_arrived ..))⟩
      have ⟨hold, taken, timer, _⟩ := plain_refuses refuses
      rw [cycle_waiting, cycle_reopened refuses, ← cutting, ← hold, ← taken, ← timer]

end Sys2Proof.Machine
